-- ==== Sys2Proof/Word.lean ====
section
/-! DEFINITION. The word types of the block: register words and field operands of 16 bits, address bytes, the 9 bits the
device keeps of a word (00_scope.md R6, R8; 10_state.md R15). -/

namespace Sys2Proof

/-- An address byte: a device register address or the bus device address (R38). -/
abbrev Byte := BitVec 8

/-- A RegisterWord: "a 16-bit unsigned value" (R15). -/
abbrev Word := BitVec 16

/-- The nine bits of a word that the device keeps: "only the low 9 bits are ever hardware-significant" (R15, R53). -/
abbrev Word9 := BitVec 9

/-- A requested field value of SET_STRUCTURED: an unsigned 16-bit integer (R66). -/
abbrev FieldValue := BitVec 16

/-- A gain operand: a signed 16-bit number of centibels, in two's complement (R65). -/
abbrev Gain := BitVec 16

end Sys2Proof
end

