-- ==== Sys2Proof/Syntax.lean ====
section
/-! DEFINITION. The names of the block and its instructions: register identities (R14), field names (R19 to R27), raw words in
their formats (R59 to R61), and Instr, one constructor for each row of spec/opcode_table.json. -/

namespace Sys2Proof

/-- Register identity: "an enumerated logical register identity (ten values …)" (R14, R39). -/
inductive RegId where
  | lli   -- LeftLineIn
  | rli   -- RightLineIn
  | lhp   -- LeftHeadphoneOut
  | rhp   -- RightHeadphoneOut
  | aapc  -- AnalogAudioPathControl
  | dapc  -- DigitalAudioPathControl
  | pdc   -- PowerDownControl
  | daif  -- DigitalAudioInterfaceFormat
  | sc    -- SamplingControl
  | ac    -- ActiveControl
  deriving DecidableEq, Repr, Inhabited

/-- The names of the non-reserved fields of the register words (R19 to R26) and of the reset trigger word (R27). -/
inductive FieldName where
  | volume | mute | bothUpdate | zeroCrossEnable
  | micBoost | muteMic | inputSelect | bypass | dacSelect | sidetone | sidetoneAtt
  | adcHpDisable | deEmphasis | dacMute | hpFilter
  | lineIn | mic | adc | dac | out | osc | clkout | poweroff
  | format | wordLength | lrPhase | lrSwap | masterSlave | bclkInvert
  | usbNormal | bosr | sampleRate | clkinDiv2 | clkoutDiv2
  | active
  | resetCode
  deriving DecidableEq, Repr

/-- One structured field of a register word: its name, its lowest bit and its width (R8, R16). -/
structure Field where
  name  : FieldName
  lo    : Nat
  width : Nat
  deriving DecidableEq, Repr

/-- A raw word in its format: a 32-bit command word, which the caller presents at the command port (R59), a 32-bit micro-operation word
with its side operands (R60, R66), or a 24-bit bus frame (R61); the last two never enter the block from outside (R60, R93). -/
inductive Encoded where
  | command  (w : BitVec 32)
  | microOp  (w : BitVec 32) (operands : List FieldValue)
  | busFrame (f : BitVec 24)
  deriving DecidableEq, Repr

/-- The instructions: the five commands (R67), GET, the ten variants of SET_STRUCTURED, WRITE_REG, WRITE_RAW (R60), and the eleven
frame shapes (R61). The operands of SET_STRUCTURED and of a frame are the register's fields, LSB-first (R66). -/
inductive Instr where
  | initializeCodec
  | reset
  | setLineInVolume (g : Gain)
  | setHeadphoneVolume (g : Gain)
  | headphoneMute
  | get (r : RegId)
  | setStructuredLli (volume mute bothUpdate : FieldValue)
  | setStructuredRli (volume mute bothUpdate : FieldValue)
  | setStructuredLhp (volume zeroCross bothUpdate : FieldValue)
  | setStructuredRhp (volume zeroCross bothUpdate : FieldValue)
  | setStructuredAapc (micBoost muteMic inputSelect bypass dacSelect sidetone sidetoneAtt : FieldValue)
  | setStructuredDapc (adcHpDisable deEmphasis dacMute hpFilter : FieldValue)
  | setStructuredPdc (lineIn mic adc dac out osc clkout poweroff : FieldValue)
  | setStructuredDaif (format wordLength lrPhase lrSwap masterSlave bclkInvert : FieldValue)
  | setStructuredSc (usbNormal bosr sampleRate clkinDiv2 clkoutDiv2 : FieldValue)
  | setStructuredAc (active : FieldValue)
  | writeReg (r : RegId)
  | writeRaw (addr : Byte) (word : Word)
  | frameLli (volume mute bothUpdate : FieldValue)
  | frameRli (volume mute bothUpdate : FieldValue)
  | frameLhp (volume zeroCross bothUpdate : FieldValue)
  | frameRhp (volume zeroCross bothUpdate : FieldValue)
  | frameAapc (micBoost muteMic inputSelect bypass dacSelect sidetone sidetoneAtt : FieldValue)
  | frameDapc (adcHpDisable deEmphasis dacMute hpFilter : FieldValue)
  | framePdc (lineIn mic adc dac out osc clkout poweroff : FieldValue)
  | frameDaif (format wordLength lrPhase lrSwap masterSlave bclkInvert : FieldValue)
  | frameSc (usbNormal bosr sampleRate clkinDiv2 clkoutDiv2 : FieldValue)
  | frameAc (active : FieldValue)
  | frameRst (resetCode : FieldValue)
  deriving DecidableEq, Repr

end Sys2Proof
end

