-- ==== Sys2Proof/Config.lean ====
section
/-! DEFINITION. What the spec leaves to the environment or to the implementation: constants with no body. Nothing can evaluate them,
so a claim holds whatever they are. The values the spec DOES choose (register addresses, the INITIALIZE words, the default image) are
in Machine/Params.lean. -/

namespace Sys2Proof

/-- The transport's answer to one bus write: "`Ok` or `BusError`, chosen by the environment for each call independently" (R42). -/
inductive Answer where
  | ok
  | busError
  deriving DecidableEq, Repr, Inhabited

/-- What a gain write with both-update = 1 copies to the paired channel (R55: "volume only, or volume and mute, or the whole word"; D27). -/
inductive BothCopy where
  | volumeOnly
  | allButBothUpdate
  | wholeWord
  deriving DecidableEq, Repr, Inhabited

/-- DEVICE_ADDR, "a byte, fixed when the controller is created, never changed" (R13); OPEN (R7, D11). Log 4. -/
opaque Config.deviceAddr : Byte

/-- BOTH_COPY (D27, U9): not in source. Log 13. -/
opaque Config.bothCopy : BothCopy

/-- The transport's answer to the bus write made at draw `n`, where the environment has fixed none (R42, D19). Log 3. -/
opaque Config.transportAnswer : Nat → Answer

/-- Whether a write the device may defer takes effect at once (R55, R56, U10). Log 12. -/
opaque Config.effectImmediate : Nat → RegId → Bool

/-- Whether the deferred effect of a register has arrived by draw `n` (R55, R56, U10). Log 22. -/
opaque Config.effectArrives : Nat → RegId → Bool

/-- Whether a write answered BusError changed this device register all the same (R57, D26). Log 14. -/
opaque Config.failedWriteTook : Nat → RegId → Bool

/-- Whether a reset trigger answered BusError reset the device all the same (R57, D26). Log 14. -/
opaque Config.failedResetTook : Nat → Bool

/-- What a device register holds after a write to an address the source does not describe (R40, N10, U8). Log 15. -/
opaque Config.unmappedRegs : Nat → RegId → Word9

/-- What is in effect for a device register after such a write (R40, N10, U8). Log 15. -/
opaque Config.unmappedEffect : Nat → RegId → Word9

end Sys2Proof
end

