-- ==== Sys2Proof/Machine/RegFile.lean ====
section
/-! DEFINITION. A file of ten registers, one per register identity (10_state.md R14, R18): the bank and the device's registers have
this shape. Reads and writes go through get and set only. -/

namespace Sys2Proof.Machine

/-- "a fixed-size ordered collection of ten RegisterWords, one per Register, addressable by Register identity" (R18). -/
structure RegFile (α : Type) where
  lli  : α
  rli  : α
  lhp  : α
  rhp  : α
  aapc : α
  dapc : α
  pdc  : α
  daif : α
  sc   : α
  ac   : α
  deriving DecidableEq, Repr

/-- `bank[r]` (R9). -/
def RegFile.get {α : Type} (b : RegFile α) : RegId → α
  | .lli => b.lli
  | .rli => b.rli
  | .lhp => b.lhp
  | .rhp => b.rhp
  | .aapc => b.aapc
  | .dapc => b.dapc
  | .pdc => b.pdc
  | .daif => b.daif
  | .sc => b.sc
  | .ac => b.ac

/-- `bank[r] <- v` (R9): no other register changes (R28). -/
def RegFile.set {α : Type} (b : RegFile α) (r : RegId) (v : α) : RegFile α :=
  match r with
  | .lli => { b with lli := v }
  | .rli => { b with rli := v }
  | .lhp => { b with lhp := v }
  | .rhp => { b with rhp := v }
  | .aapc => { b with aapc := v }
  | .dapc => { b with dapc := v }
  | .pdc => { b with pdc := v }
  | .daif => { b with daif := v }
  | .sc => { b with sc := v }
  | .ac => { b with ac := v }

/-- The register file that holds `f r` at each `r`. -/
def RegFile.ofFn {α : Type} (f : RegId → α) : RegFile α :=
  { lli := f .lli, rli := f .rli, lhp := f .lhp, rhp := f .rhp, aapc := f .aapc
    dapc := f .dapc, pdc := f .pdc, daif := f .daif, sc := f .sc, ac := f .ac }

/-- The ten identities in the order of R14. -/
def allRegs : List RegId := [.lli, .rli, .lhp, .rhp, .aapc, .dapc, .pdc, .daif, .sc, .ac]

end Sys2Proof.Machine
end

