-- ==== Sys2Proof/Machine/Params.lean ====
section
/-! DEFINITION. The constants the spec fixes or chooses: register addresses (R14, decision D1), the reset trigger (R6), the default
image (R30, R74), gain ranges and steps (R6), the INITIALIZE words (R102, decisions D7 to D10). They stand here, one definition each,
so that one can be replaced without touching anything else (R7, R108). -/

namespace Sys2Proof.Machine

/-- `addr(r)`: the device register address of a register (R14, decision D1: the listing order). Log 8. -/
def addr : RegId → Byte
  | .lli => 0x00#8
  | .rli => 0x01#8
  | .lhp => 0x02#8
  | .rhp => 0x03#8
  | .aapc => 0x04#8
  | .dapc => 0x05#8
  | .pdc => 0x06#8
  | .daif => 0x07#8
  | .sc => 0x08#8
  | .ac => 0x09#8

/-- The register at a device address, if there is one (R40). -/
def regAt (a : Byte) : Option RegId := allRegs.find? (fun r => addr r == a)

/-- The bank index of a register: "The bank index of a register equals its bus address" (R14). -/
def regIndex (r : RegId) : BitVec 4 := (addr r).setWidth 4

/-- The register of a bank index; 10 to 15 name none (R39, R69). -/
def regOfIndex (i : BitVec 4) : Option RegId := regAt (i.setWidth 8)

/-- `RESET_ADDR` (R6, R27). -/
def resetAddr : Byte := 0x0F#8

/-- `RESET_VALUE` (R6). -/
def resetValue : Word := 0x0000#16

/-- `default_image()`, the power-on bank (R30, R74). -/
def defaultImage : RegFile Word :=
  { lli := 0x0097#16, rli := 0x0097#16, lhp := 0x0079#16, rhp := 0x0079#16, aapc := 0x000A#16
    dapc := 0x0008#16, pdc := 0x009F#16, daif := 0x000A#16, sc := 0x0000#16, ac := 0x0000#16 }

/-- `LI_MIN_CB`, `LI_MAX_CB`, `LI_STEP_CB` (R6, R32). -/
def lineInMin : Int := -345
def lineInMax : Int := 120
def lineInStep : Nat := 15

/-- `HP_MIN_CB`, `HP_MAX_CB`, `HP_STEP_CB` (R6, R32). -/
def headphoneMin : Int := -1210
def headphoneMax : Int := 60
def headphoneStep : Nat := 10

/-- The words of INITIALIZE steps 2 to 6 (R102; R108 and D7 to D10 say how the prose was read). Log 9. -/
def initPdc : Word := 0x0000#16
def initDaif : Word := 0x000A#16
def initDapc : Word := 0x0000#16
def initAapc : Word := 0x0015#16
def initAc : Word := 0x0001#16

end Sys2Proof.Machine
end

