-- ==== Sys2Proof/Machine/Operands.lean ====
section
/-! DEFINITION. The operand forms: the structured view of every register word and its codec, pack and unpack with masks
(10_state.md R16, R19 to R27; 30_encoding.md R62 to R66), the width check of SET_STRUCTURED (R77), and the sign-extended gain (R65). -/

namespace Sys2Proof.Machine

/-- The non-reserved fields of a register, LSB-first (R19 to R26). -/
def layout : RegId → List Field
  | .lli | .rli => [⟨.volume, 0, 5⟩, ⟨.mute, 7, 1⟩, ⟨.bothUpdate, 8, 1⟩]
  | .lhp | .rhp => [⟨.volume, 0, 7⟩, ⟨.zeroCrossEnable, 7, 1⟩, ⟨.bothUpdate, 8, 1⟩]
  | .aapc =>
    [⟨.micBoost, 0, 1⟩, ⟨.muteMic, 1, 1⟩, ⟨.inputSelect, 2, 1⟩, ⟨.bypass, 3, 1⟩, ⟨.dacSelect, 4, 1⟩,
      ⟨.sidetone, 5, 1⟩, ⟨.sidetoneAtt, 6, 2⟩]
  | .dapc => [⟨.adcHpDisable, 0, 1⟩, ⟨.deEmphasis, 1, 2⟩, ⟨.dacMute, 3, 1⟩, ⟨.hpFilter, 4, 1⟩]
  | .pdc =>
    [⟨.lineIn, 0, 1⟩, ⟨.mic, 1, 1⟩, ⟨.adc, 2, 1⟩, ⟨.dac, 3, 1⟩, ⟨.out, 4, 1⟩, ⟨.osc, 5, 1⟩,
      ⟨.clkout, 6, 1⟩, ⟨.poweroff, 7, 1⟩]
  | .daif =>
    [⟨.format, 0, 2⟩, ⟨.wordLength, 2, 2⟩, ⟨.lrPhase, 4, 1⟩, ⟨.lrSwap, 5, 1⟩, ⟨.masterSlave, 6, 1⟩,
      ⟨.bclkInvert, 7, 1⟩]
  | .sc =>
    [⟨.usbNormal, 0, 1⟩, ⟨.bosr, 1, 1⟩, ⟨.sampleRate, 2, 4⟩, ⟨.clkinDiv2, 6, 1⟩, ⟨.clkoutDiv2, 7, 1⟩]
  | .ac => [⟨.active, 0, 1⟩]

/-- The word format of the reset trigger, "reset-code(9), reserved(7)" (R27, R86). -/
def resetLayout : List Field := [⟨.resetCode, 0, 9⟩]

/-- The greatest value a field holds, `2^width - 1` (R29, R77). -/
def fieldLimit (f : Field) : FieldValue := BitVec.ofNat 16 (2 ^ f.width - 1)

/-- Every field has a value and no value exceeds its field's width (R66, R77). -/
def fieldsFit : List Field → List FieldValue → Bool
  | [], [] => true
  | f :: fs, v :: vs => decide (v ≤ fieldLimit f) && fieldsFit fs vs
  | _, _ => false

/-- `pack` over a list of fields (R62). Each value is cut to its field's width, so a reserved bit is never set (R16); for the values
R62 speaks of the cut changes nothing. Log 18. -/
def packFields : List Field → List FieldValue → Word
  | f :: fs, v :: vs => ((v &&& fieldLimit f) <<< f.lo) ||| packFields fs vs
  | _, _ => 0#16

/-- One field of a word, `w[hi:lo]` (R8). -/
def fieldOf (f : Field) (w : Word) : FieldValue := (w >>> f.lo) &&& fieldLimit f

/-- `unpack` over a list of fields (R63): total, the reserved bits are dropped. -/
def unpackFields (fs : List Field) (w : Word) : List FieldValue := fs.map (fun f => fieldOf f w)

/-- `mask` over a list of fields: 1 in every non-reserved bit (R64). -/
def maskFields (fs : List Field) : Word := packFields fs (fs.map fieldLimit)

/-- `pack_r` (R62). -/
def pack (r : RegId) (fv : List FieldValue) : Word := packFields (layout r) fv

/-- `unpack_r` (R63), the structured read of R76. -/
def unpack (r : RegId) (w : Word) : List FieldValue := unpackFields (layout r) w

/-- `mask_r` (R64). -/
def mask (r : RegId) : Word := maskFields (layout r)

/-- A field of a register word by its name (R16). -/
def readField (r : RegId) (name : FieldName) (w : Word) : Option FieldValue :=
  ((layout r).find? (fun f => f.name == name)).map (fun f => fieldOf f w)

/-- `sext(arg[15:0])` (R65): the gain as an integer number of centibels. -/
def centibels (g : Gain) : Int := g.toInt

end Sys2Proof.Machine
end

