-- ==== Sys2Proof/WellFormed.lean ====
section
/-! DEFINITION. Which instructions are well formed: a frame's fields fit the bits R61 gives them. Everything else is well formed by its
type: a register identity is one of ten (R39), a gain and a field operand are any 16 bits (R65, R66), an address any byte and a word
any 16 bits (R60). -/

namespace Sys2Proof

open Sys2Proof.Machine

/-- The check. A SET_STRUCTURED operand that is too wide is NOT ill formed: it is presented and refused when executed (R66, R77). -/
def Instr.wellFormed : Instr → Bool
  | .initializeCodec => true
  | .reset => true
  | .setLineInVolume _ => true
  | .setHeadphoneVolume _ => true
  | .headphoneMute => true
  | .get _ => true
  | .setStructuredLli _ _ _ => true
  | .setStructuredRli _ _ _ => true
  | .setStructuredLhp _ _ _ => true
  | .setStructuredRhp _ _ _ => true
  | .setStructuredAapc _ _ _ _ _ _ _ => true
  | .setStructuredDapc _ _ _ _ => true
  | .setStructuredPdc _ _ _ _ _ _ _ _ => true
  | .setStructuredDaif _ _ _ _ _ _ => true
  | .setStructuredSc _ _ _ _ _ => true
  | .setStructuredAc _ => true
  | .writeReg _ => true
  | .writeRaw _ _ => true
  | .frameLli v m b => fieldsFit (layout .lli) [v, m, b]
  | .frameRli v m b => fieldsFit (layout .rli) [v, m, b]
  | .frameLhp v z b => fieldsFit (layout .lhp) [v, z, b]
  | .frameRhp v z b => fieldsFit (layout .rhp) [v, z, b]
  | .frameAapc b m i y d s a => fieldsFit (layout .aapc) [b, m, i, y, d, s, a]
  | .frameDapc a e m h => fieldsFit (layout .dapc) [a, e, m, h]
  | .framePdc l m a d u o c p => fieldsFit (layout .pdc) [l, m, a, d, u, o, c, p]
  | .frameDaif f l p s m b => fieldsFit (layout .daif) [f, l, p, s, m, b]
  | .frameSc u b r i o => fieldsFit (layout .sc) [u, b, r, i, o]
  | .frameAc a => fieldsFit (layout .ac) [a]
  | .frameRst c => fieldsFit resetLayout [c]

end Sys2Proof
end

