-- ==== Sys2Proof/Decode.lean ====
section
/-! DEFINITION. Decoding of command words, micro-operation words and bus frames (30_encoding.md R59 to R61, R67 to R69), total on every
word and rejecting by name, and after it the encoder. The binary forms of commands and micro-operations are the spec's decision D3;
where the side operands of SET_STRUCTURED stand in a number of the opcode table is log 7. -/

namespace Sys2Proof

open Sys2Proof.Machine

/-- Why a word spells no operation. -/
inductive DecodeError where
  /-- `op` is 0x0, 0x6, 0x7 or 0xC to 0xF (R67, R69) -/
  | reservedOpcode
  /-- a bit that must be 0 is 1 (R68) -/
  | mustBeZero
  /-- a micro-operation's `op` at the command port (R69) -/
  | internalOperation
  /-- a command's `op` in a micro-operation word: its top bit is 0 (R60) -/
  | notMicroOperation
  /-- `reg` is 10 to 15 (R39, R69) -/
  | noSuchRegister
  /-- not one operand for each field of the register (R66), or operands where the operation has none (R60) -/
  | operandCount
  /-- a frame's address is none of 0x00 to 0x09 and 0x0F (R61) -/
  | noSuchFrame
  /-- a frame's reserved bit is 1 (R70) -/
  | reservedBits
  deriving DecidableEq, Repr

/-- `op`, bits [31:28] of a command or micro-operation word (R59, R60). -/
def opField (w : BitVec 32) : BitVec 4 := w.extractLsb' 28 4

/-- `zero`, bits [27:16] of a command word (R59). -/
def zeroField (w : BitVec 32) : BitVec 12 := w.extractLsb' 16 12

/-- `arg`, bits [15:0] of a command word, and `word` of WRITE_RAW (R59, R60). -/
def argField (w : BitVec 32) : BitVec 16 := w.extractLsb' 0 16

/-- Bits [27:4] of a micro-operation word that names a register: they must be 0 (R60). -/
def uopZeroField (w : BitVec 32) : BitVec 24 := w.extractLsb' 4 24

/-- `reg`, bits [3:0] of a micro-operation word (R60). -/
def regField (w : BitVec 32) : BitVec 4 := w.extractLsb' 0 4

/-- Bits [27:24] of WRITE_RAW: they must be 0 (R60). -/
def rawZeroField (w : BitVec 32) : BitVec 4 := w.extractLsb' 24 4

/-- `addr`, bits [23:16] of WRITE_RAW (R60). -/
def rawAddrField (w : BitVec 32) : Byte := w.extractLsb' 16 8

/-- SET_STRUCTURED of a register with its operands, if there is one operand for each field (R66). -/
def structuredInstr : RegId → List FieldValue → Option Instr
  | .lli, [v, m, b] => some (.setStructuredLli v m b)
  | .rli, [v, m, b] => some (.setStructuredRli v m b)
  | .lhp, [v, z, b] => some (.setStructuredLhp v z b)
  | .rhp, [v, z, b] => some (.setStructuredRhp v z b)
  | .aapc, [b, m, i, y, d, s, a] => some (.setStructuredAapc b m i y d s a)
  | .dapc, [a, e, m, h] => some (.setStructuredDapc a e m h)
  | .pdc, [l, m, a, d, u, o, c, p] => some (.setStructuredPdc l m a d u o c p)
  | .daif, [f, l, p, s, m, b] => some (.setStructuredDaif f l p s m b)
  | .sc, [u, b, r, i, o] => some (.setStructuredSc u b r i o)
  | .ac, [a] => some (.setStructuredAc a)
  | _, _ => none

/-- The frame of a register with its fields (R61). -/
def frameInstr : RegId → List FieldValue → Option Instr
  | .lli, [v, m, b] => some (.frameLli v m b)
  | .rli, [v, m, b] => some (.frameRli v m b)
  | .lhp, [v, z, b] => some (.frameLhp v z b)
  | .rhp, [v, z, b] => some (.frameRhp v z b)
  | .aapc, [b, m, i, y, d, s, a] => some (.frameAapc b m i y d s a)
  | .dapc, [a, e, m, h] => some (.frameDapc a e m h)
  | .pdc, [l, m, a, d, u, o, c, p] => some (.framePdc l m a d u o c p)
  | .daif, [f, l, p, s, m, b] => some (.frameDaif f l p s m b)
  | .sc, [u, b, r, i, o] => some (.frameSc u b r i o)
  | .ac, [a] => some (.frameAc a)
  | _, _ => none

/-- An instruction of a command that takes no argument: bits [15:0] must be 0 (R68). -/
def decodeNoArg (i : Instr) (w : BitVec 32) : Except DecodeError Instr :=
  if argField w = 0#16 then .ok i else .error .mustBeZero

/-- A word at the command port (R59, R67, R68, R69). -/
def decodeCommand (w : BitVec 32) : Except DecodeError Instr :=
  if opField w = 0x8#4 ∨ opField w = 0x9#4 ∨ opField w = 0xA#4 ∨ opField w = 0xB#4 then .error .internalOperation
  else if zeroField w ≠ 0#12 then .error .mustBeZero
  else if opField w = 0x1#4 then decodeNoArg .initializeCodec w
  else if opField w = 0x2#4 then decodeNoArg .reset w
  else if opField w = 0x3#4 then .ok (.setLineInVolume (argField w))
  else if opField w = 0x4#4 then .ok (.setHeadphoneVolume (argField w))
  else if opField w = 0x5#4 then decodeNoArg .headphoneMute w
  else .error .reservedOpcode

/-- An instruction made from the register a micro-operation word names (R60, R68, R69). -/
def decodeReg (w : BitVec 32) (make : RegId → Except DecodeError Instr) : Except DecodeError Instr :=
  if uopZeroField w ≠ 0#24 then .error .mustBeZero
  else match regOfIndex (regField w) with
    | none => .error .noSuchRegister
    | some r => make r

/-- An operation without side operands (R60). -/
def decodeNoOperands (i : Instr) (fv : List FieldValue) : Except DecodeError Instr :=
  if fv = [] then .ok i else .error .operandCount

/-- A micro-operation word with its side operands (R60, R66 to R69). -/
def decodeMicroOp (w : BitVec 32) (fv : List FieldValue) : Except DecodeError Instr :=
  if opField w = 0x8#4 then decodeReg w (fun r => decodeNoOperands (.get r) fv)
  else if opField w = 0x9#4 then
    decodeReg w (fun r => match structuredInstr r fv with | some i => .ok i | none => .error .operandCount)
  else if opField w = 0xA#4 then decodeReg w (fun r => decodeNoOperands (.writeReg r) fv)
  else if opField w = 0xB#4 then
    if rawZeroField w ≠ 0#4 then .error .mustBeZero
    else decodeNoOperands (.writeRaw (rawAddrField w) (argField w)) fv
  else if (opField w).getLsbD 3 then .error .reservedOpcode
  else .error .notMicroOperation

/-- The address byte of a frame, bits [23:16] (R61). -/
def frameAddr (f : BitVec 24) : Byte := f.extractLsb' 16 8

/-- The value of a frame, bits [15:0] (R61). -/
def frameValue (f : BitVec 24) : Word := f.extractLsb' 0 16

/-- A frame's fields by its layout, if its reserved bits are 0 (R61, R70). -/
def decodeFields (fs : List Field) (value : Word) (make : List FieldValue → Option Instr) : Except DecodeError Instr :=
  if value &&& ~~~(maskFields fs) ≠ 0#16 then .error .reservedBits
  else match make (unpackFields fs value) with
    | some i => .ok i
    | none => .error .operandCount

/-- The reset trigger's frame (R61, R86). -/
def resetFrame : List FieldValue → Option Instr
  | [c] => some (.frameRst c)
  | _ => none

/-- A bus frame (R61). -/
def decodeFrame (f : BitVec 24) : Except DecodeError Instr :=
  if frameAddr f = resetAddr then decodeFields resetLayout (frameValue f) resetFrame
  else match regAt (frameAddr f) with
    | none => .error .noSuchFrame
    | some r => decodeFields (layout r) (frameValue f) (frameInstr r)

/-- The decoder. -/
def decode : Encoded → Except DecodeError Instr
  | .command w => decodeCommand w
  | .microOp w fv => decodeMicroOp w fv
  | .busFrame f => decodeFrame f

/-- How many side operands a micro-operation word takes: `nf(reg)` for SET_STRUCTURED, none otherwise (R60, R66). -/
def operandCountOf (w : BitVec 32) : Nat :=
  if opField w = 0x9#4 then
    match regOfIndex (regField w) with
    | some r => (layout r).length
    | none => 0
  else 0

/-- The raw word that an instruction of the opcode table is, from its bits as the table numbers them: 24 bits are a bus frame; 32 or
more are a word with its side operands above bit 31, 16 bits each, `fv[0]` lowest (log 7). A word whose top bit of `op` is 1 is a
micro-operation, any other a command (R60). -/
def encodedOfTable (nbits w : Nat) : Encoded :=
  if nbits = 24 then .busFrame (BitVec.ofNat 24 w)
  else if (BitVec.ofNat 32 w).getLsbD 31 then
    .microOp (BitVec.ofNat 32 w)
      ((List.range (operandCountOf (BitVec.ofNat 32 w))).map (fun i => BitVec.ofNat 16 (w >>> (32 + 16 * i))))
  else .command (BitVec.ofNat 32 w)

/-- What the decoder reads from an instruction of the opcode table. -/
def decodeTableWord (nbits w : Nat) : Option Instr :=
  match decode (encodedOfTable nbits w) with
  | .ok i => some i
  | .error _ => none

/-- A command word (R59). -/
def commandWord (op : BitVec 4) (arg : BitVec 16) : BitVec 32 := op ++ 0#12 ++ arg

/-- A micro-operation word that names a register (R60). -/
def uopWord (op : BitVec 4) (r : RegId) : BitVec 32 := op ++ 0#24 ++ regIndex r

/-- The WRITE_RAW word (R60). -/
def rawWord (a : Byte) (w : Word) : BitVec 32 := 0xB#4 ++ 0#4 ++ a ++ w

/-- A frame: the address byte above the 16-bit value (R61). -/
def frameWord (a : Byte) (w : Word) : BitVec 24 := a ++ w

/-- The SET_STRUCTURED word of a register with its operands (R60, R66). -/
def encodeStructured (r : RegId) (fv : List FieldValue) : Encoded := .microOp (uopWord 0x9#4 r) fv

/-- The frame of a register with its fields: "The value is always the packed word of the addressed register" (R61). -/
def encodeFrame (r : RegId) (fv : List FieldValue) : Encoded := .busFrame (frameWord (addr r) (pack r fv))

/-- The encoder (R59 to R61, R67, R68). -/
def encode : Instr → Encoded
  | .initializeCodec => .command (commandWord 0x1#4 0#16)
  | .reset => .command (commandWord 0x2#4 0#16)
  | .setLineInVolume g => .command (commandWord 0x3#4 g)
  | .setHeadphoneVolume g => .command (commandWord 0x4#4 g)
  | .headphoneMute => .command (commandWord 0x5#4 0#16)
  | .get r => .microOp (uopWord 0x8#4 r) []
  | .setStructuredLli v m b => encodeStructured .lli [v, m, b]
  | .setStructuredRli v m b => encodeStructured .rli [v, m, b]
  | .setStructuredLhp v z b => encodeStructured .lhp [v, z, b]
  | .setStructuredRhp v z b => encodeStructured .rhp [v, z, b]
  | .setStructuredAapc b m i y d s a => encodeStructured .aapc [b, m, i, y, d, s, a]
  | .setStructuredDapc a e m h => encodeStructured .dapc [a, e, m, h]
  | .setStructuredPdc l m a d u o c p => encodeStructured .pdc [l, m, a, d, u, o, c, p]
  | .setStructuredDaif f l p s m b => encodeStructured .daif [f, l, p, s, m, b]
  | .setStructuredSc u b r i o => encodeStructured .sc [u, b, r, i, o]
  | .setStructuredAc a => encodeStructured .ac [a]
  | .writeReg r => .microOp (uopWord 0xA#4 r) []
  | .writeRaw a w => .microOp (rawWord a w) []
  | .frameLli v m b => encodeFrame .lli [v, m, b]
  | .frameRli v m b => encodeFrame .rli [v, m, b]
  | .frameLhp v z b => encodeFrame .lhp [v, z, b]
  | .frameRhp v z b => encodeFrame .rhp [v, z, b]
  | .frameAapc b m i y d s a => encodeFrame .aapc [b, m, i, y, d, s, a]
  | .frameDapc a e m h => encodeFrame .dapc [a, e, m, h]
  | .framePdc l m a d u o c p => encodeFrame .pdc [l, m, a, d, u, o, c, p]
  | .frameDaif f l p s m b => encodeFrame .daif [f, l, p, s, m, b]
  | .frameSc u b r i o => encodeFrame .sc [u, b, r, i, o]
  | .frameAc a => encodeFrame .ac [a]
  | .frameRst c => .busFrame (frameWord resetAddr (packFields resetLayout [c]))

end Sys2Proof
end

