-- ==== Sys2Proof/Machine/State.lean ====
section
/-! DEFINITION. The state of the machine (10_state.md R13), the environment it drives (20_memory.md section 4), the model's own record
of what the block returns, and the reasons a step can stop. Plain data throughout. -/

namespace Sys2Proof.Machine

/-- The five exposed controller operations with their operands (R58, R67); `seq.cmd` holds one. -/
inductive Command where
  | initializeCodec
  | reset
  | setLineInVolume (g : Gain)
  | setHeadphoneVolume (g : Gain)
  | headphoneMute
  deriving DecidableEq, Repr

/-- The sequencer: `seq.phase`, and in Run `seq.cmd` and `seq.step`, the program counter of this hardware (R13, R31, R33). In Idle it
holds neither: they exist in Run only (R33, U17). Log 17. -/
inductive Seq where
  | idle
  | run (cmd : Command) (step : Nat)
  deriving DecidableEq, Repr

/-- The status of an operation (R11, R123). -/
inductive Status where
  | ok
  | busError
  | invalidFieldValue
  | illegalCommand
  deriving DecidableEq, Repr

/-- What a micro-operation returns: a word or a status (R60). -/
inductive MicroResult where
  | word (w : Word)
  | status (st : Status)
  deriving DecidableEq, Repr

/-- One frame issued, with the transport's answer (R13, R42). -/
structure TraceEntry where
  device  : Byte
  address : Byte
  value   : Word
  answer  : Answer
  deriving DecidableEq, Repr

/-- What the outside presents: a word at the command port, or the power-on reset of the block (R95, R142). It can present no
micro-operation and no frame (R93, R134, R140). Log 5, log 20. -/
inductive Request where
  | command (w : BitVec 32)
  | hardwareReset
  deriving DecidableEq, Repr

/-- The device behind the bus, the environment's state (R36, R53). `regs` is the word each register was last set to; `effect` is the
word in effect, which may lag behind it (R55, R56, R154). Log 11. -/
structure Device where
  regs   : RegFile Word9
  effect : RegFile Word9
  deriving DecidableEq, Repr

/-- The device as it powers on: the default image in every register and in effect (R53). -/
def Device.powerOn : Device :=
  { regs := RegFile.ofFn (fun r => (defaultImage.get r).setWidth 9)
    effect := RegFile.ofFn (fun r => (defaultImage.get r).setWidth 9) }

/-- The state. `bank` and `seq` are the block's (R13); `trace` is the record R13 names; `device`, `inbox` and `answers` are the
environment's; `statuses`, `results`, `placed` and `draws` are the model's own (log 2, log 6, log 21). -/
structure State where
  /-- `bank[0..9]`, the ten 16-bit words (R13 to R18) -/
  bank     : RegFile Word
  /-- `seq.phase`, `seq.cmd`, `seq.step` (R13, R31, R33) -/
  seq      : Seq
  /-- the frames issued, oldest first (R13) -/
  trace    : List TraceEntry
  /-- the statuses returned to the caller, oldest first (R123, R159); the model's record -/
  statuses : List Status
  /-- the results of micro-operations, oldest first (R60); the model's record -/
  results  : List MicroResult
  /-- what is presented and not yet taken, oldest first (R95, R99, R159) -/
  inbox    : List Request
  /-- a word of the opcode table that the model's user has placed to be executed by itself, as a micro-operation or a frame never is in the
  block (R93); neither what is presented nor any step fills it, so that it is empty in every run from reset. Log 6 -/
  placed   : Option Encoded
  /-- transport answers the environment has already fixed, oldest first (R100); after them answers are free -/
  answers  : List Answer
  /-- the counter the free values of Config are applied to; the model's own -/
  draws    : Nat
  /-- the device behind the bus (R53) -/
  device   : Device
  deriving DecidableEq, Repr

/-- Why the machine stops. -/
inductive Fault where
  /-- Raised by the five commands when a command is executed while another runs: "a command presented while another runs has no step"
  (R99, U15 'stuck'). Safe: the model stops. `step` never raises it. -/
  | busy
  /-- Raised by `step` in Run when `seq.step` indexes no step of the program, which R33 excludes. Safe: the model stops. -/
  | noSuchStep
  deriving DecidableEq, Repr

/-- Why an instruction has no meaning here. -/
inductive Refusal where
  /-- Raised by an arm of `exec` that has no meaning yet. Safe. -/
  | notModelled (mnemonic : String)
  /-- Raised by `step` for a micro-operation word or a frame that the decoder refuses: it "names no register and is never produced"
  (R69, R70). Safe. A command word is never refused so: it is answered IllegalCommand. -/
  | undecodable (reason : DecodeError)
  deriving DecidableEq, Repr

/-- The machine right after power-on reset (R142, R143): bank = default image, Idle, empty trace. The device has just powered on too
(log 10); nothing is presented or placed, no answer is fixed (log 3, log 5, log 6). -/
def State.reset : State :=
  { bank := defaultImage
    seq := .idle
    trace := []
    statuses := []
    results := []
    inbox := []
    placed := none
    answers := []
    draws := 0
    device := Device.powerOn }

end Sys2Proof.Machine
end

