-- ==== Sys2Proof/Machine/Device.lean ====
section
/-! DEFINITION. The codec device as the environment of the block: what the document states about the chip that receives the frames
(20_memory.md R53 to R57). Whatever it does not say is a free value of Config. No rule of the block reads any of it (R5). -/

namespace Sys2Proof.Machine

/-- The paired channel of a gain register (R55). -/
def pairedReg : RegId → Option RegId
  | .lli => some .rli
  | .rli => some .lli
  | .lhp => some .rhp
  | .rhp => some .lhp
  | .aapc | .dapc | .pdc | .daif | .sc | .ac => none

/-- The bits of a gain word that go to the paired channel under BOTH_COPY (R55, D27). Log 13. -/
def copyMask (c : BothCopy) (r : RegId) : Word9 :=
  match c, r with
  | .wholeWord, _ => 0x1FF#9
  | .volumeOnly, .lhp | .volumeOnly, .rhp => 0x07F#9
  | .volumeOnly, _ => 0x01F#9
  | .allButBothUpdate, .lhp | .allButBothUpdate, .rhp => 0x0FF#9
  | .allButBothUpdate, _ => 0x09F#9

/-- The paired channel's word after the copy. -/
def copyInto (m old new : Word9) : Word9 := (old &&& ~~~m) ||| (new &&& m)

/-- The register a write with both-update = 1 also changes (R19, R20: bit 8; R55). -/
def linkedReg (r : RegId) (v : Word9) : Option RegId := if v.getLsbD 8 then pairedReg r else none

/-- The device is inactive: bit 0 of its ActiveControl is 0 (R26, R56). -/
def Device.inactive (d : Device) : Bool := !(d.regs.get .ac).getLsbD 0

/-- zero-cross-enable in a headphone word (R20). -/
def zeroCross (r : RegId) (v : Word9) : Bool := (r == .lhp || r == .rhp) && v.getLsbD 7

/-- Whether the device may hold the effect of this change of register `r` back: while it is inactive (R56), for every register but
ActiveControl; and in a headphone register while zero-cross-enable is set in the word the register holds, in the word `v` it takes, or in
the word `sent` on the bus (R55). The last matters for the paired channel only: whose zero-cross-enable delays it the spec does not say
(R55, R154), so any of the three MAY (DEDUCED, log 12). -/
def Device.mayDefer (d : Device) (sent : Word9) (r : RegId) (v : Word9) : Bool :=
  (d.inactive && r != .ac) || zeroCross r (d.regs.get r) || zeroCross r v || zeroCross r sent

/-- One device register takes the word `v` because `sent` came over the bus; a change that may be deferred takes effect now or later,
freely. -/
def Device.put (n : Nat) (sent : Word9) (r : RegId) (v : Word9) (d : Device) : Device :=
  { regs := d.regs.set r v
    effect := if d.mayDefer sent r v && !Config.effectImmediate n r then d.effect else d.effect.set r v }

/-- A write to a device register that takes place (R53), with the paired channel (R55), whose change may be delayed by the left or the
right word's zero-cross-enable alike (log 12). No other register changes, whatever the word: DESIGN CHOICE for a word that powers the
device or a part of it down, since what survives that is not in source (R139; log 25). -/
def Device.write (n : Nat) (r : RegId) (v : Word9) (d : Device) : Device :=
  match linkedReg r v with
  | none => d.put n v r v
  | some q => (d.put n v r v).put n v q (copyInto (copyMask Config.bothCopy r) (d.regs.get q) v)

/-- Register by register, the second device where `took` says so and the first elsewhere. -/
def Device.mix (took : RegId → Bool) (d e : Device) : Device :=
  { regs := RegFile.ofFn (fun q => if took q then e.regs.get q else d.regs.get q)
    effect := RegFile.ofFn (fun q => if took q then e.effect.get q else d.effect.get q) }

/-- The device after a write to an address the source does not describe (R40, N10, U8). Log 15. -/
def Device.unmapped (n : Nat) : Device :=
  { regs := RegFile.ofFn (Config.unmappedRegs n), effect := RegFile.ofFn (Config.unmappedEffect n) }

/-- Deferred effects arrive, each when its free value says so (R55, R56, U10). Log 22. -/
def Device.settle (n : Nat) (d : Device) : Device :=
  { d with effect := RegFile.ofFn (fun r => if Config.effectArrives n r then d.regs.get r else d.effect.get r) }

/-- A bus write answered Ok (R53, R54). A write to the reset trigger returns every register to the default image, "regardless of payload
bits", and leaves nothing deferred (log 12). -/
def Device.accept (n : Nat) (a : Byte) (v : Word) (d : Device) : Device :=
  if a = resetAddr then Device.powerOn
  else match regAt a with
    | some r => d.write n r (v.setWidth 9)
    | none => Device.unmapped n

/-- A bus write answered BusError: each register holds its old or its new word, and the reset trigger reset all of the device or none
of it (R57, D26). Log 14. -/
def Device.reject (n : Nat) (a : Byte) (v : Word) (d : Device) : Device :=
  if a = resetAddr then if Config.failedResetTook n then Device.powerOn else d
  else match regAt a with
    | some r => d.mix (Config.failedWriteTook n) (d.write n r (v.setWidth 9))
    | none => Device.unmapped n

/-- What one bus write does to the device: deferred effects may arrive first, then the write. -/
def Device.busWrite (n : Nat) (a : Byte) (v : Word) (ans : Answer) (d : Device) : Device :=
  match ans with
  | .ok => (d.settle n).accept n a v
  | .busError => (d.settle n).reject n a v

end Sys2Proof.Machine
end

