-- ==== Sys2Proof/Machine/Flags.lean ====
section
/-! DEFINITION. "The block has no flags, condition codes or status register" (10_state.md R34). What stands in their place is the
status an operation returns (60_exceptions.md R123). -/

namespace Sys2Proof.Machine

/-- The 2-bit code of a status (R123, decision D4). -/
def Status.code : Status → BitVec 2
  | .ok => 0#2
  | .busError => 1#2
  | .invalidFieldValue => 2#2
  | .illegalCommand => 3#2

/-- The status of a bus write is the transport's answer, "propagated unchanged" (R91, R124). -/
def statusOf : Answer → Status
  | .ok => .ok
  | .busError => .busError

end Sys2Proof.Machine
end

