-- ==== Sys2Proof/Machine/Ops.lean ====
section
/-! DEFINITION. The named operations over the state: reading and writing the bank, the one bus primitive, SET_STRUCTURED and the write
plumbing, ending an operation with a status (the block's only form of taking an exception, and there is no return from one: R130, R132),
power-on reset, and the passing of time while nothing is presented. -/

namespace Sys2Proof.Machine

/-- `bank[r] <- w` (R9, R18). -/
def State.writeBank (r : RegId) (w : Word) (s : State) : State := { s with bank := s.bank.set r w }

/-- The sequencer's next state (R101). -/
def State.setSeq (q : Seq) (s : State) : State := { s with seq := q }

/-- A micro-operation returns a result (R60). Log 2. -/
def State.logResult (m : MicroResult) (s : State) : State := { s with results := s.results ++ [m] }

/-- The operation in progress ends with a status: "the current operation ends; the status is returned to the caller;
`seq.phase <- Idle`. Nothing is saved anywhere" (R130, R97, R98). -/
def State.endCommand (st : Status) (s : State) : State := { s with statuses := s.statuses ++ [st], seq := .idle }

/-- The answer the transport gives to the `k`-th bus write from now: the one the environment has fixed, or a free one (R42, R100). -/
def State.answerAt (s : State) (k : Nat) : Answer :=
  match s.answers[k]? with
  | some a => a
  | none => Config.transportAnswer (s.draws + k)

/-- The state after one bus write (R42): the frame and its answer are on the trace, the device has taken the write or not. -/
def State.busWrite (a : Byte) (v : Word) (s : State) : State :=
  { s with
    trace := s.trace ++ [⟨Config.deviceAddr, a, v, s.answerAt 0⟩]
    answers := s.answers.tail
    draws := s.draws + 1
    device := s.device.busWrite s.draws a v (s.answerAt 0) }

/-- `MemWrite(addr, 16, v)`, the one bus primitive: one frame, one answer (R42, R43). -/
def memWrite (a : Byte) (v : Word) (s : State) : State × Answer := (s.busWrite a v, s.answerAt 0)

/-- `write(address, word)` (R91). -/
def writeRaw (a : Byte) (w : Word) (s : State) : State × Status :=
  ((memWrite a w s).1, statusOf (memWrite a w s).2)

/-- `write(register)`: it sends "the affected register's current word" (R90). -/
def writeReg (r : RegId) (s : State) : State × Status := writeRaw (addr r) (s.bank.get r) s

/-- `set_structured(register, field_values)` (R77): all checks before any change, then the whole register is replaced. -/
def setStructured (r : RegId) (fv : List FieldValue) (s : State) : Except Status (State × Word) :=
  if fieldsFit (layout r) fv then .ok (s.writeBank r (pack r fv), pack r fv) else .error .invalidFieldValue

/-- `store(reg, fv)`: SET_STRUCTURED then WRITE_REG, nothing between (R92); a bad field ends it before any change (R127). -/
def store (r : RegId) (fv : List FieldValue) (s : State) : State × Status :=
  match setStructured r fv s with
  | .error st => (s, st)
  | .ok (t, _) => writeReg r t

/-- Power-on reset of the block: a new bank and sequencer, an empty record; "device untouched; no frame is sent" (R142, R145). Log 20. -/
def State.powerOnReset (s : State) : State :=
  { s with bank := defaultImage, seq := .idle, trace := [], statuses := [], results := [] }

/-- Nothing is presented: the block does nothing (R144), and on the device deferred effects may arrive (R55, R56). Log 22. -/
def State.idleTick (s : State) : State := { s with draws := s.draws + 1, device := s.device.settle s.draws }

/-- Take the first request. -/
def State.setInbox (q : List Request) (s : State) : State := { s with inbox := q }

/-- Fill or empty the slot of the placed word (log 6). -/
def State.setPlaced (e : Option Encoded) (s : State) : State := { s with placed := e }

/-- What is answered to a word that spells no operation: at the command port the status IllegalCommand, nothing else changing (R69,
R95, R126); a micro-operation or frame that names nothing is refused (R69, R70). Log 19. -/
def rejectWord (e : Encoded) (why : DecodeError) (s : State) : Host.Outcome State Fault Refusal :=
  match e with
  | .command _ => .next (s.endCommand .illegalCommand)
  | .microOp _ _ => .refused (.undecodable why)
  | .busFrame _ => .refused (.undecodable why)

end Sys2Proof.Machine
end

