-- ==== Sys2Proof/Machine/BankOps.lean ====
section
/-! DEFINITION. The RegisterBank's operations as micro-operations (40_bank_ops.md): GET and the ten variants of SET_STRUCTURED. None of
them causes a bus write (R87). -/

namespace Sys2Proof.Machine

/-- SET_STRUCTURED as a micro-operation: it returns the new word, or the status InvalidFieldValue with the bank unchanged (R60, R77). -/
def runSetStructured (r : RegId) (fv : List FieldValue) (s : State) : Host.Outcome State Fault Refusal :=
  match setStructured r fv s with
  | .ok (t, w) => .next (t.logResult (.word w))
  | .error st => .next (s.logResult (.status st))

/-- GET (R75): the current raw word; nothing else changes. -/
def execGet (r : RegId) (s : State) : Host.Outcome State Fault Refusal := .next (s.logResult (.word (s.bank.get r)))

/-- SET_STRUCTURED of LeftLineIn (R78). -/
def execSetStructuredLli (volume mute bothUpdate : FieldValue) (s : State) : Host.Outcome State Fault Refusal :=
  runSetStructured .lli [volume, mute, bothUpdate] s

/-- SET_STRUCTURED of RightLineIn (R78). -/
def execSetStructuredRli (volume mute bothUpdate : FieldValue) (s : State) : Host.Outcome State Fault Refusal :=
  runSetStructured .rli [volume, mute, bothUpdate] s

/-- SET_STRUCTURED of LeftHeadphoneOut (R79). -/
def execSetStructuredLhp (volume zeroCross bothUpdate : FieldValue) (s : State) : Host.Outcome State Fault Refusal :=
  runSetStructured .lhp [volume, zeroCross, bothUpdate] s

/-- SET_STRUCTURED of RightHeadphoneOut (R79). -/
def execSetStructuredRhp (volume zeroCross bothUpdate : FieldValue) (s : State) : Host.Outcome State Fault Refusal :=
  runSetStructured .rhp [volume, zeroCross, bothUpdate] s

/-- SET_STRUCTURED of AnalogAudioPathControl (R80). -/
def execSetStructuredAapc (micBoost muteMic inputSelect bypass dacSelect sidetone sidetoneAtt : FieldValue) (s : State) :
    Host.Outcome State Fault Refusal :=
  runSetStructured .aapc [micBoost, muteMic, inputSelect, bypass, dacSelect, sidetone, sidetoneAtt] s

/-- SET_STRUCTURED of DigitalAudioPathControl (R81). -/
def execSetStructuredDapc (adcHpDisable deEmphasis dacMute hpFilter : FieldValue) (s : State) :
    Host.Outcome State Fault Refusal :=
  runSetStructured .dapc [adcHpDisable, deEmphasis, dacMute, hpFilter] s

/-- SET_STRUCTURED of PowerDownControl (R82). -/
def execSetStructuredPdc (lineIn mic adc dac out osc clkout poweroff : FieldValue) (s : State) :
    Host.Outcome State Fault Refusal :=
  runSetStructured .pdc [lineIn, mic, adc, dac, out, osc, clkout, poweroff] s

/-- SET_STRUCTURED of DigitalAudioInterfaceFormat (R83). -/
def execSetStructuredDaif (format wordLength lrPhase lrSwap masterSlave bclkInvert : FieldValue) (s : State) :
    Host.Outcome State Fault Refusal :=
  runSetStructured .daif [format, wordLength, lrPhase, lrSwap, masterSlave, bclkInvert] s

/-- SET_STRUCTURED of SamplingControl (R84). -/
def execSetStructuredSc (usbNormal bosr sampleRate clkinDiv2 clkoutDiv2 : FieldValue) (s : State) :
    Host.Outcome State Fault Refusal :=
  runSetStructured .sc [usbNormal, bosr, sampleRate, clkinDiv2, clkoutDiv2] s

/-- SET_STRUCTURED of ActiveControl (R85). -/
def execSetStructuredAc (active : FieldValue) (s : State) : Host.Outcome State Fault Refusal :=
  runSetStructured .ac [active] s

end Sys2Proof.Machine
end

