-- ==== Sys2Proof/Machine/Gain.lean ====
section
/-! DEFINITION. The only arithmetic of the block (43_gain.md R111 to R116): clamp, offset and quantise, in integers. -/

namespace Sys2Proof.Machine

/-- `clamp(g, MIN, MAX) = min(max(g, MIN), MAX)` (R111). -/
def clampGain (g lo hi : Int) : Int := min (max g lo) hi

/-- `offset(g, MIN, MAX) = clamp(g, MIN, MAX) - MIN`; "values are always non-negative after clamping" (R112). -/
def gainOffset (g lo hi : Int) : Nat := (clampGain g lo hi - lo).toNat

/-- `code(g, MIN, MAX, STEP) = offset div STEP`, truncated toward zero (R113). -/
def gainCode (g lo hi : Int) (step : Nat) : Nat := gainOffset g lo hi / step

/-- The line-in code of a gain operand (R115, R117). -/
def lineInCode (g : Gain) : Nat := gainCode (centibels g) lineInMin lineInMax lineInStep

/-- The headphone code of a gain operand (R116, R118). -/
def headphoneCode (g : Gain) : Nat := gainCode (centibels g) headphoneMin headphoneMax headphoneStep

end Sys2Proof.Machine
end

