-- ==== Sys2Proof/Machine/Sequencer.lean ====
section
/-! DEFINITION. The write sequencer (42_sequencer_init_reset.md R94 to R101): the fixed program of each command, acceptance, one step,
and a command run to its status. -/

namespace Sys2Proof.Machine

/-- A step of a program: "either `store(reg, fv)` … or `WRITE_RAW(0x0F, 0x0000)`" (R94). -/
inductive ProgStep where
  | store (r : RegId) (fv : List FieldValue)
  | resetTrigger
  deriving DecidableEq, Repr

/-- The store of a gain on the line-in side: volume = code, mute = 0, both-update = 1 (R117). -/
def storeLineIn (code : Nat) : ProgStep := .store .lli [BitVec.ofNat 16 code, 0#16, 1#16]

/-- The store of a gain on the headphone side: volume = code, zero-cross-enable = 1, both-update = 1 (R118). -/
def storeHeadphone (code : Nat) : ProgStep := .store .lhp [BitVec.ofNat 16 code, 1#16, 1#16]

/-- The INITIALIZE program (R102, R103). Steps 7 and 8 are the stores of `set_line_in_volume 0` and `headphone_mute` (D23). -/
def programInitialize : List ProgStep :=
  [.resetTrigger,
    .store .pdc (unpack .pdc initPdc),
    .store .daif (unpack .daif initDaif),
    .store .dapc (unpack .dapc initDapc),
    .store .aapc (unpack .aapc initAapc),
    .store .ac (unpack .ac initAc),
    storeLineIn (lineInCode 0#16),
    storeHeadphone (headphoneCode (BitVec.ofInt 16 headphoneMin))]

/-- The RESET program (R109). -/
def programReset : List ProgStep := [.resetTrigger]

/-- The SET_LINE_IN_VOLUME program (R117). -/
def programLineIn (g : Gain) : List ProgStep := [storeLineIn (lineInCode g)]

/-- The SET_HEADPHONE_VOLUME program (R118). -/
def programHeadphone (g : Gain) : List ProgStep := [storeHeadphone (headphoneCode g)]

/-- The HEADPHONE_MUTE program: "driving volume to its floor" (R119). -/
def programMute : List ProgStep := [storeHeadphone 0]

/-- `program(cmd)` (R94). -/
def program : Command → List ProgStep
  | .initializeCodec => programInitialize
  | .reset => programReset
  | .setLineInVolume g => programLineIn g
  | .setHeadphoneVolume g => programHeadphone g
  | .headphoneMute => programMute

/-- `seq.cmd <- c`, `seq.step <- 1`, `seq.phase <- Run`; "Acceptance itself changes neither the bank nor the bus" (R95). -/
def accept (c : Command) (s : State) : State := s.setSeq (.run c 1)

/-- The effect of one program step, up to its answer (R96). -/
def performStep (p : ProgStep) (s : State) : State × Status :=
  match p with
  | .store r fv => store r fv s
  | .resetTrigger => writeRaw resetAddr resetValue s

/-- One step of the sequencer: step `k` of the program of `c`, which is `p` (R96). The last step answered Ok ends the command with Ok
(R97); an error ends it at once (R98); otherwise the step index grows by one (R33). -/
def seqStep (c : Command) (k : Nat) (p : ProgStep) (s : State) : State :=
  match (performStep p s).2 with
  | .ok =>
    if k = (program c).length then (performStep p s).1.endCommand .ok
    else (performStep p s).1.setSeq (.run c (k + 1))
  | st => (performStep p s).1.endCommand st

/-- The steps that are left, from step `k` on, until the sequencer is Idle (R96 to R98). -/
def runSteps (c : Command) : List ProgStep → Nat → State → State
  | [], _, s => s
  | p :: rest, k, s =>
    match (seqStep c k p s).seq with
    | .idle => seqStep c k p s
    | .run _ _ => runSteps c rest (k + 1) (seqStep c k p s)

/-- A command: accepted in Idle and run to its status, since nothing can interleave (R95, R100). In Run it has no step (R99, U15).
Log 1, log 16. -/
def runCommand (c : Command) (s : State) : Host.Outcome State Fault Refusal :=
  match s.seq with
  | .idle => .next (runSteps c (program c) 1 (accept c s))
  | .run _ _ => .fault .busy

/-- A step of a machine found in Run: one step of the running command (R96); no request is taken (R99). -/
def runningStep (c : Command) (k : Nat) (s : State) : Host.Outcome State Fault Refusal :=
  match k with
  | 0 => .fault .noSuchStep
  | j + 1 =>
    match (program c)[j]? with
    | some p => .next (seqStep c (j + 1) p s)
    | none => .fault .noSuchStep

end Sys2Proof.Machine
end

