-- ==== Sys2Proof/Machine/Commands.lean ====
section
/-! DEFINITION. The five commands of the controller (R67): each runs its program (42_sequencer_init_reset.md, 43_gain.md). -/

namespace Sys2Proof.Machine

/-- INITIALIZE (R103). -/
def execInitializeCodec (s : State) : Host.Outcome State Fault Refusal := runCommand .initializeCodec s

/-- RESET (R109): one frame (0x0F, 0x0000); the bank is not touched (R110). -/
def execReset (s : State) : Host.Outcome State Fault Refusal := runCommand .reset s

/-- SET_LINE_IN_VOLUME (R117). -/
def execSetLineInVolume (g : Gain) (s : State) : Host.Outcome State Fault Refusal := runCommand (.setLineInVolume g) s

/-- SET_HEADPHONE_VOLUME (R118). -/
def execSetHeadphoneVolume (g : Gain) (s : State) : Host.Outcome State Fault Refusal := runCommand (.setHeadphoneVolume g) s

/-- HEADPHONE_MUTE (R119). -/
def execHeadphoneMute (s : State) : Host.Outcome State Fault Refusal := runCommand .headphoneMute s

end Sys2Proof.Machine
end

