-- ==== Sys2Proof/Machine/Frames.lean ====
section
/-! DEFINITION. The bus frames (30_encoding.md R61): a frame is what one `MemWrite` hands the transport, so its meaning is that one bus
write (20_memory.md R42), whose answer stands in the trace. Log 6. -/

namespace Sys2Proof.Machine

/-- The bus write of a register's frame (R42, R61). -/
def sendFrame (r : RegId) (fv : List FieldValue) (s : State) : Host.Outcome State Fault Refusal :=
  .next (memWrite (addr r) (pack r fv) s).1

/-- FRAME_LLI (R61). -/
def execFrameLli (volume mute bothUpdate : FieldValue) (s : State) : Host.Outcome State Fault Refusal :=
  sendFrame .lli [volume, mute, bothUpdate] s

/-- FRAME_RLI (R61). -/
def execFrameRli (volume mute bothUpdate : FieldValue) (s : State) : Host.Outcome State Fault Refusal :=
  sendFrame .rli [volume, mute, bothUpdate] s

/-- FRAME_LHP (R61). -/
def execFrameLhp (volume zeroCross bothUpdate : FieldValue) (s : State) : Host.Outcome State Fault Refusal :=
  sendFrame .lhp [volume, zeroCross, bothUpdate] s

/-- FRAME_RHP (R61). -/
def execFrameRhp (volume zeroCross bothUpdate : FieldValue) (s : State) : Host.Outcome State Fault Refusal :=
  sendFrame .rhp [volume, zeroCross, bothUpdate] s

/-- FRAME_AAPC (R61). -/
def execFrameAapc (micBoost muteMic inputSelect bypass dacSelect sidetone sidetoneAtt : FieldValue) (s : State) :
    Host.Outcome State Fault Refusal :=
  sendFrame .aapc [micBoost, muteMic, inputSelect, bypass, dacSelect, sidetone, sidetoneAtt] s

/-- FRAME_DAPC (R61). -/
def execFrameDapc (adcHpDisable deEmphasis dacMute hpFilter : FieldValue) (s : State) : Host.Outcome State Fault Refusal :=
  sendFrame .dapc [adcHpDisable, deEmphasis, dacMute, hpFilter] s

/-- FRAME_PDC (R61). -/
def execFramePdc (lineIn mic adc dac out osc clkout poweroff : FieldValue) (s : State) : Host.Outcome State Fault Refusal :=
  sendFrame .pdc [lineIn, mic, adc, dac, out, osc, clkout, poweroff] s

/-- FRAME_DAIF (R61). -/
def execFrameDaif (format wordLength lrPhase lrSwap masterSlave bclkInvert : FieldValue) (s : State) :
    Host.Outcome State Fault Refusal :=
  sendFrame .daif [format, wordLength, lrPhase, lrSwap, masterSlave, bclkInvert] s

/-- FRAME_SC (R61). -/
def execFrameSc (usbNormal bosr sampleRate clkinDiv2 clkoutDiv2 : FieldValue) (s : State) :
    Host.Outcome State Fault Refusal :=
  sendFrame .sc [usbNormal, bosr, sampleRate, clkinDiv2, clkoutDiv2] s

/-- FRAME_AC (R61). -/
def execFrameAc (active : FieldValue) (s : State) : Host.Outcome State Fault Refusal :=
  sendFrame .ac [active] s

/-- FRAME_RST (R61, R86). -/
def execFrameRst (resetCode : FieldValue) (s : State) : Host.Outcome State Fault Refusal :=
  .next (memWrite resetAddr (packFields resetLayout [resetCode]) s).1

end Sys2Proof.Machine
end

