-- ==== Sys2Proof/Machine/Plumbing.lean ====
section
/-! DEFINITION. The internal write plumbing as micro-operations (41_write_plumbing.md): WRITE_REG and WRITE_RAW. -/

namespace Sys2Proof.Machine

/-- A micro-operation whose result is the status of one bus write (R60). -/
def returnStatus (p : State × Status) : Host.Outcome State Fault Refusal := .next (p.1.logResult (.status p.2))

/-- WRITE_REG (R90). -/
def execWriteReg (r : RegId) (s : State) : Host.Outcome State Fault Refusal := returnStatus (writeReg r s)

/-- WRITE_RAW (R91). -/
def execWriteRaw (a : Byte) (w : Word) (s : State) : Host.Outcome State Fault Refusal := returnStatus (writeRaw a w s)

end Sys2Proof.Machine
end

