-- ==== Sys2Proof/Machine/Dispatch.lean ====
section
/-! DEFINITION. One arm per row of the opcode table. -/

namespace Sys2Proof.Machine

def exec (i : Instr) (s : State) : Host.Outcome State Fault Refusal :=
  match i with
  | .initializeCodec => Sys2Proof.Machine.execInitializeCodec s
  | .reset => Sys2Proof.Machine.execReset s
  | .setLineInVolume g => Sys2Proof.Machine.execSetLineInVolume g s
  | .setHeadphoneVolume g => Sys2Proof.Machine.execSetHeadphoneVolume g s
  | .headphoneMute => Sys2Proof.Machine.execHeadphoneMute s
  | .get r => Sys2Proof.Machine.execGet r s
  | .setStructuredLli v m b => Sys2Proof.Machine.execSetStructuredLli v m b s
  | .setStructuredRli v m b => Sys2Proof.Machine.execSetStructuredRli v m b s
  | .setStructuredLhp v z b => Sys2Proof.Machine.execSetStructuredLhp v z b s
  | .setStructuredRhp v z b => Sys2Proof.Machine.execSetStructuredRhp v z b s
  | .setStructuredAapc b m n y d t a => Sys2Proof.Machine.execSetStructuredAapc b m n y d t a s
  | .setStructuredDapc a e m h => Sys2Proof.Machine.execSetStructuredDapc a e m h s
  | .setStructuredPdc l m a d u o c p => Sys2Proof.Machine.execSetStructuredPdc l m a d u o c p s
  | .setStructuredDaif f l p w m b => Sys2Proof.Machine.execSetStructuredDaif f l p w m b s
  | .setStructuredSc u b r n o => Sys2Proof.Machine.execSetStructuredSc u b r n o s
  | .setStructuredAc a => Sys2Proof.Machine.execSetStructuredAc a s
  | .writeReg r => Sys2Proof.Machine.execWriteReg r s
  | .writeRaw a w => Sys2Proof.Machine.execWriteRaw a w s
  | .frameLli v m b => Sys2Proof.Machine.execFrameLli v m b s
  | .frameRli v m b => Sys2Proof.Machine.execFrameRli v m b s
  | .frameLhp v z b => Sys2Proof.Machine.execFrameLhp v z b s
  | .frameRhp v z b => Sys2Proof.Machine.execFrameRhp v z b s
  | .frameAapc b m n y d t a => Sys2Proof.Machine.execFrameAapc b m n y d t a s
  | .frameDapc a e m h => Sys2Proof.Machine.execFrameDapc a e m h s
  | .framePdc l m a d u o c p => Sys2Proof.Machine.execFramePdc l m a d u o c p s
  | .frameDaif f l p w m b => Sys2Proof.Machine.execFrameDaif f l p w m b s
  | .frameSc u b r n o => Sys2Proof.Machine.execFrameSc u b r n o s
  | .frameAc a => Sys2Proof.Machine.execFrameAc a s
  | .frameRst c => Sys2Proof.Machine.execFrameRst c s

end Sys2Proof.Machine
end

