-- ==== Sys2Proof/Machine/Step.lean ====
section
/-! DEFINITION. The step function. In Run the machine performs one step of the running command and takes no request (R96, R99). In Idle
it takes the first request: a command word is decoded and executed, or answered as rejectWord says; a power-on reset creates the block
anew; and with nothing presented the block does nothing (R95, R142, R144). A placed word (log 6) comes before all requests. -/

namespace Sys2Proof.Machine

/-- Decode a word and execute it (R95, R69). -/
def takeWord (e : Encoded) (s : State) : Host.Outcome State Fault Refusal :=
  match decode e with
  | .ok i => exec i s
  | .error why => rejectWord e why s

/-- One step of the machine. -/
def step (s : State) : Host.Outcome State Fault Refusal :=
  match s.seq with
  | .run c k => runningStep c k s
  | .idle =>
    match s.placed with
    | some e => takeWord e (s.setPlaced none)
    | none =>
      match s.inbox with
      | [] => .next s.idleTick
      | .hardwareReset :: rest => .next (s.setInbox rest).powerOnReset
      | .command w :: rest => takeWord (.command w) (s.setInbox rest)

/-- `s` with an instruction of the opcode table where the very next step takes it, in Idle: a command word is presented first and nothing
is placed before it; a micro-operation word or a frame is placed. Log 5, log 6. -/
def State.withFetchWord (s : State) (nbits w : Nat) : State :=
  match encodedOfTable nbits w with
  | .command c => ((s.setSeq .idle).setPlaced none).setInbox (.command c :: s.inbox)
  | .microOp u fv => (s.setSeq .idle).setPlaced (some (.microOp u fv))
  | .busFrame f => (s.setSeq .idle).setPlaced (some (.busFrame f))

end Sys2Proof.Machine
end

