-- ==== Sys2Proof/Safety.lean ====
section
/-! DEFINITION. The terms claims use: the invariants of the block (R17, R33, R160), the whole command as a function (R100), and what it
is for a word to spell a command (R68). -/

namespace Sys2Proof.Machine

/-- "for every register `r` at every time `bank[r] & ~mask_r = 0`" (R17), of a bank. -/
def RegFile.ReservedZero (b : RegFile Word) : Prop := ∀ r : RegId, b.get r &&& ~~~(mask r) = 0#16

/-- `seq.step` is the index of a step of the running command's program (R31, R33). -/
def Seq.InProgram : Seq → Prop
  | .idle => True
  | .run c k => 1 ≤ k ∧ k ≤ (program c).length

/-- The invariant of the block: reserved bits are 0 and the step index is one of its program (R17, R33). -/
def State.Inv (s : State) : Prop := s.bank.ReservedZero ∧ s.seq.InProgram

/-- `AnyIdle` (R160): Idle, with a bank that satisfies the reserved-zero invariant. -/
def State.AnyIdle (s : State) : Prop := s.seq = .idle ∧ s.bank.ReservedZero

/-- The registers no command stores: "`bank[1]`, `bank[3]` and `bank[8]` still hold their defaults" (R160). -/
def State.UnstoredDefault (s : State) : Prop :=
  s.bank.get .rli = 0x0097#16 ∧ s.bank.get .rhp = 0x0079#16 ∧ s.bank.get .sc = 0x0000#16

/-- The instruction of a command (R67). -/
def Command.instr : Command → Instr
  | .initializeCodec => .initializeCodec
  | .reset => .reset
  | .setLineInVolume g => .setLineInVolume g
  | .setHeadphoneVolume g => .setHeadphoneVolume g
  | .headphoneMute => .headphoneMute

/-- What a command leaves: `(bank', trace, status)` (R100). -/
structure CommandResult where
  bank   : RegFile Word
  trace  : List TraceEntry
  status : Status
  deriving DecidableEq, Repr

/-- A result with one more entry before its trace. -/
def CommandResult.cons (e : TraceEntry) (r : CommandResult) : CommandResult := { r with trace := e :: r.trace }

/-- The frame of a program step over a bank that already holds the step's update (R100). -/
def ProgStep.frame (b : RegFile Word) : ProgStep → Byte × Word
  | .store r _ => (addr r, b.get r)
  | .resetTrigger => (0x0F#8, 0x0000#16)

/-- The bank update of a program step (R100: `bank[reg] <- pack_reg(fv)`). -/
def ProgStep.update (b : RegFile Word) : ProgStep → RegFile Word
  | .store r fv => b.set r (pack r fv)
  | .resetTrigger => b

/-- The loop of `run` (R100) over the steps that are left, the answers being numbered from `k` on. -/
def referenceSteps (answers : Nat → Answer) : List ProgStep → Nat → RegFile Word → CommandResult
  | [], _, b => ⟨b, [], .ok⟩
  | p :: rest, k, b =>
    let b' := p.update b
    let e : TraceEntry := ⟨Config.deviceAddr, (p.frame b').1, (p.frame b').2, answers k⟩
    match answers k with
    | .busError => ⟨b', [e], .busError⟩
    | .ok => (referenceSteps answers rest (k + 1) b').cons e

/-- `run(cmd, bank, answers)` (R100), written from the rule and not from the sequencer. -/
def referenceRun (c : Command) (b : RegFile Word) (answers : Nat → Answer) : CommandResult :=
  referenceSteps answers (program c) 0 b

/-- The words that spell a command, by the exact match and mask of each (R68). -/
def legalCommandWord (w : BitVec 32) : Bool :=
  w == 0x10000000#32 || w == 0x20000000#32 || w &&& 0xFFFF0000#32 == 0x30000000#32 ||
    w &&& 0xFFFF0000#32 == 0x40000000#32 || w == 0x50000000#32

end Sys2Proof.Machine
end

