-- ==== Sys2Proof/Certificates/Slice0/Obligations.lean ====
section
/-! DEFINITION. The statements about the machine, from the numbered rules of spec/. Each docstring names the rule; where a clause rests
on a decision or an inference the spec marks as its own, or on the model's choice, the docstring names the decision or the log entry.
That statuses of commands stand in `statuses` and results of micro-operations in `results` is the model's record (log 2) throughout. -/

open Sys2Proof Sys2Proof.Machine

/-! ## Reset -/

/-- R30: the default image, as fields and as raw words, is the bank of every new controller. -/
def Obligations.ResetBankIsDefaultImage : Prop :=
  State.reset.bank = defaultImage ∧ (∀ s : State, s.powerOnReset.bank = defaultImage) ∧
  (defaultImage.get .lli = 0x0097#16 ∧ unpack .lli (defaultImage.get .lli) = [23#16, 1#16, 0#16]) ∧
  (defaultImage.get .rli = 0x0097#16 ∧ unpack .rli (defaultImage.get .rli) = [23#16, 1#16, 0#16]) ∧
  (defaultImage.get .lhp = 0x0079#16 ∧ unpack .lhp (defaultImage.get .lhp) = [121#16, 0#16, 0#16]) ∧
  (defaultImage.get .rhp = 0x0079#16 ∧ unpack .rhp (defaultImage.get .rhp) = [121#16, 0#16, 0#16]) ∧
  (defaultImage.get .aapc = 0x000A#16 ∧
    unpack .aapc (defaultImage.get .aapc) = [0#16, 1#16, 0#16, 1#16, 0#16, 0#16, 0#16]) ∧
  (defaultImage.get .dapc = 0x0008#16 ∧ unpack .dapc (defaultImage.get .dapc) = [0#16, 0#16, 1#16, 0#16]) ∧
  (defaultImage.get .pdc = 0x009F#16 ∧
    unpack .pdc (defaultImage.get .pdc) = [1#16, 1#16, 1#16, 1#16, 1#16, 0#16, 0#16, 1#16]) ∧
  (defaultImage.get .daif = 0x000A#16 ∧
    unpack .daif (defaultImage.get .daif) = [2#16, 2#16, 0#16, 0#16, 0#16, 0#16]) ∧
  (defaultImage.get .sc = 0x0000#16 ∧ unpack .sc (defaultImage.get .sc) = [0#16, 0#16, 0#16, 0#16, 0#16]) ∧
  (defaultImage.get .ac = 0x0000#16 ∧ unpack .ac (defaultImage.get .ac) = [0#16])

/-- R142 with decision D15: power-on reset makes the bank the default image and the sequencer Idle, sends no frame, starts with an empty
trace and leaves the device alone (R145). That it is taken from the inbox in Idle is the model's choice (log 20). -/
def Obligations.HardwareResetRecreatesBlock : Prop :=
  State.reset.seq = .idle ∧ State.reset.trace = [] ∧
  ∀ (s : State) (rest : List Request), s.seq = .idle → s.placed = none → s.inbox = .hardwareReset :: rest →
    ∃ t, step s = .next t ∧ t.bank = defaultImage ∧ t.seq = .idle ∧ t.trace = [] ∧ t.device = s.device ∧
      t.inbox = rest ∧ t.answers = s.answers

/-! ## Addresses and the register codec -/

/-- R14 with decision D1: each name's address; addresses are distinct, lie in 0x00 to 0x09, and equal the bank index. -/
def Obligations.RegisterAddressesAreDistinctAndContiguous : Prop :=
  (addr .lli = 0x00#8 ∧ addr .rli = 0x01#8 ∧ addr .lhp = 0x02#8 ∧ addr .rhp = 0x03#8 ∧ addr .aapc = 0x04#8 ∧
    addr .dapc = 0x05#8 ∧ addr .pdc = 0x06#8 ∧ addr .daif = 0x07#8 ∧ addr .sc = 0x08#8 ∧ addr .ac = 0x09#8) ∧
  (∀ q r : RegId, addr q = addr r → q = r) ∧
  (∀ a : Byte, a ≤ 0x09#8 ↔ ∃ r : RegId, addr r = a) ∧
  (∀ (a : Byte) (r : RegId), regAt a = some r ↔ addr r = a) ∧
  (∀ r : RegId, (regIndex r).toNat = (addr r).toNat ∧ regOfIndex (regIndex r) = some r)

/-- R16: "converting structured→raw→structured is lossless (bit-exact round trip)", for every register and every field tuple that fits;
"any write to reserved bits is defined as always writing zero"; and no two fields share a bit (bit `i` of the mask is in exactly one). -/
def Obligations.UnpackInvertsPack : Prop :=
  ∀ (r : RegId) (fv : List FieldValue), fieldsFit (layout r) fv = true →
    unpack r (pack r fv) = fv ∧
    (∀ i, (mask r).getLsbD i = false → (pack r fv).getLsbD i = false) ∧
    (∀ i, (mask r).getLsbD i = true ↔ ∃ f ∈ layout r, f.lo ≤ i ∧ i < f.lo + f.width) ∧
    (layout r).Pairwise (fun f g => f.lo + f.width ≤ g.lo) ∧ ∀ f ∈ layout r, f.lo + f.width ≤ 9

/-- The other laws of R64 (which the spec derives from R62 and R63): packing the unpacked word masks it, a packed word has no reserved
bit, the masks are the table's, and an unpacked word always fits. R62 and R64 speak of valid tuples only: that a tuple of values that do
not fit packs to no reserved bit either is the model's choice, since its pack cuts each value to its field (log 18). -/
def Obligations.PackOfUnpackMasksReservedBits : Prop :=
  (∀ (r : RegId) (w : Word), pack r (unpack r w) = w &&& mask r ∧ fieldsFit (layout r) (unpack r w) = true) ∧
  (∀ (r : RegId) (fv : List FieldValue), pack r fv &&& ~~~(mask r) = 0#16) ∧
  (mask .lli = 0x019F#16 ∧ mask .rli = 0x019F#16 ∧ mask .lhp = 0x01FF#16 ∧ mask .rhp = 0x01FF#16 ∧ mask .aapc = 0x00FF#16 ∧
    mask .dapc = 0x001F#16 ∧ mask .pdc = 0x00FF#16 ∧ mask .daif = 0x00FF#16 ∧ mask .sc = 0x00FF#16 ∧ mask .ac = 0x0001#16)

/-! ## The bank operations -/

/-- R75: GET returns the bank word and changes nothing else (its result is the only change), never touching the bus. -/
def Obligations.GetReturnsBankWord : Prop :=
  ∀ (r : RegId) (s : State),
    exec (.get r) s = .next { s with results := s.results ++ [.word (s.bank.get r)] } ∧
    (s.bank.ReservedZero → s.bank.get r &&& ~~~(mask r) = 0#16) ∧
    encode (.get r) = .microOp (0x80000000#32 ||| (regIndex r).setWidth 32) [] ∧
    (State.reset.bank.get .pdc = 0x009F#16)

/-- R78: SET_STRUCTURED of LeftLineIn and RightLineIn. -/
def Obligations.SetStructuredLineIn : Prop :=
  ∀ (v m b : FieldValue) (s : State),
    (v ≤ 31#16 → m ≤ 1#16 → b ≤ 1#16 →
      exec (.setStructuredLli v m b) s = .next { s with
        bank := s.bank.set .lli (v ||| (m <<< 7) ||| (b <<< 8))
        results := s.results ++ [.word (v ||| (m <<< 7) ||| (b <<< 8))] } ∧
      exec (.setStructuredRli v m b) s = .next { s with
        bank := s.bank.set .rli (v ||| (m <<< 7) ||| (b <<< 8))
        results := s.results ++ [.word (v ||| (m <<< 7) ||| (b <<< 8))] } ∧
      (v ||| (m <<< 7) ||| (b <<< 8)).extractLsb' 5 2 = 0#2 ∧ (v ||| (m <<< 7) ||| (b <<< 8)).extractLsb' 9 7 = 0#7) ∧
    (31#16 < v ∨ 1#16 < m ∨ 1#16 < b →
      (∃ t, exec (.setStructuredLli v m b) s = .next t ∧ t.results = s.results ++ [.status .invalidFieldValue]) ∧
      (∃ t, exec (.setStructuredRli v m b) s = .next t ∧ t.results = s.results ++ [.status .invalidFieldValue])) ∧
    encode (.setStructuredLli v m b) = .microOp 0x90000000#32 [v, m, b] ∧
    encode (.setStructuredRli v m b) = .microOp 0x90000001#32 [v, m, b]

/-- R79: SET_STRUCTURED of LeftHeadphoneOut and RightHeadphoneOut. -/
def Obligations.SetStructuredHeadphone : Prop :=
  ∀ (v z b : FieldValue) (s : State),
    (v ≤ 127#16 → z ≤ 1#16 → b ≤ 1#16 →
      exec (.setStructuredLhp v z b) s = .next { s with
        bank := s.bank.set .lhp (v ||| (z <<< 7) ||| (b <<< 8))
        results := s.results ++ [.word (v ||| (z <<< 7) ||| (b <<< 8))] } ∧
      exec (.setStructuredRhp v z b) s = .next { s with
        bank := s.bank.set .rhp (v ||| (z <<< 7) ||| (b <<< 8))
        results := s.results ++ [.word (v ||| (z <<< 7) ||| (b <<< 8))] } ∧
      (v ||| (z <<< 7) ||| (b <<< 8)).extractLsb' 9 7 = 0#7) ∧
    (127#16 < v ∨ 1#16 < z ∨ 1#16 < b →
      (∃ t, exec (.setStructuredLhp v z b) s = .next t ∧ t.results = s.results ++ [.status .invalidFieldValue]) ∧
      (∃ t, exec (.setStructuredRhp v z b) s = .next t ∧ t.results = s.results ++ [.status .invalidFieldValue])) ∧
    encode (.setStructuredLhp v z b) = .microOp 0x90000002#32 [v, z, b] ∧
    encode (.setStructuredRhp v z b) = .microOp 0x90000003#32 [v, z, b]

/-- R80: SET_STRUCTURED of AnalogAudioPathControl. -/
def Obligations.SetStructuredAnalogPath : Prop :=
  ∀ (b m i y d n a : FieldValue) (s : State),
    (b ≤ 1#16 → m ≤ 1#16 → i ≤ 1#16 → y ≤ 1#16 → d ≤ 1#16 → n ≤ 1#16 → a ≤ 3#16 →
      ∃ w : Word, w = b ||| (m <<< 1) ||| (i <<< 2) ||| (y <<< 3) ||| (d <<< 4) ||| (n <<< 5) ||| (a <<< 6) ∧
        exec (.setStructuredAapc b m i y d n a) s = .next { s with
          bank := s.bank.set .aapc w
          results := s.results ++ [.word w] } ∧ w.extractLsb' 8 8 = 0#8) ∧
    (1#16 < b ∨ 1#16 < m ∨ 1#16 < i ∨ 1#16 < y ∨ 1#16 < d ∨ 1#16 < n ∨ 3#16 < a →
      ∃ t, exec (.setStructuredAapc b m i y d n a) s = .next t ∧ t.results = s.results ++ [.status .invalidFieldValue]) ∧
    encode (.setStructuredAapc b m i y d n a) = .microOp 0x90000004#32 [b, m, i, y, d, n, a]

/-- R81: SET_STRUCTURED of DigitalAudioPathControl. -/
def Obligations.SetStructuredDigitalPath : Prop :=
  ∀ (a e m h : FieldValue) (s : State),
    (a ≤ 1#16 → e ≤ 3#16 → m ≤ 1#16 → h ≤ 1#16 →
      ∃ w : Word, w = a ||| (e <<< 1) ||| (m <<< 3) ||| (h <<< 4) ∧
        exec (.setStructuredDapc a e m h) s = .next { s with
          bank := s.bank.set .dapc w
          results := s.results ++ [.word w] } ∧ w.extractLsb' 5 11 = 0#11) ∧
    (1#16 < a ∨ 3#16 < e ∨ 1#16 < m ∨ 1#16 < h →
      ∃ t, exec (.setStructuredDapc a e m h) s = .next t ∧ t.results = s.results ++ [.status .invalidFieldValue]) ∧
    encode (.setStructuredDapc a e m h) = .microOp 0x90000005#32 [a, e, m, h]

/-- R82: SET_STRUCTURED of PowerDownControl. -/
def Obligations.SetStructuredPowerDown : Prop :=
  ∀ (l m a d u o c p : FieldValue) (s : State),
    (l ≤ 1#16 → m ≤ 1#16 → a ≤ 1#16 → d ≤ 1#16 → u ≤ 1#16 → o ≤ 1#16 → c ≤ 1#16 → p ≤ 1#16 →
      ∃ w : Word, w = l ||| (m <<< 1) ||| (a <<< 2) ||| (d <<< 3) ||| (u <<< 4) ||| (o <<< 5) ||| (c <<< 6) ||| (p <<< 7) ∧
        exec (.setStructuredPdc l m a d u o c p) s = .next { s with
          bank := s.bank.set .pdc w
          results := s.results ++ [.word w] } ∧ w.extractLsb' 8 8 = 0#8) ∧
    (1#16 < l ∨ 1#16 < m ∨ 1#16 < a ∨ 1#16 < d ∨ 1#16 < u ∨ 1#16 < o ∨ 1#16 < c ∨ 1#16 < p →
      ∃ t, exec (.setStructuredPdc l m a d u o c p) s = .next t ∧ t.results = s.results ++ [.status .invalidFieldValue]) ∧
    encode (.setStructuredPdc l m a d u o c p) = .microOp 0x90000006#32 [l, m, a, d, u, o, c, p]

/-- R83: SET_STRUCTURED of DigitalAudioInterfaceFormat. -/
def Obligations.SetStructuredInterfaceFormat : Prop :=
  ∀ (f l p w m b : FieldValue) (s : State),
    (f ≤ 3#16 → l ≤ 3#16 → p ≤ 1#16 → w ≤ 1#16 → m ≤ 1#16 → b ≤ 1#16 →
      ∃ v : Word, v = f ||| (l <<< 2) ||| (p <<< 4) ||| (w <<< 5) ||| (m <<< 6) ||| (b <<< 7) ∧
        exec (.setStructuredDaif f l p w m b) s = .next { s with
          bank := s.bank.set .daif v
          results := s.results ++ [.word v] } ∧ v.extractLsb' 8 8 = 0#8) ∧
    (3#16 < f ∨ 3#16 < l ∨ 1#16 < p ∨ 1#16 < w ∨ 1#16 < m ∨ 1#16 < b →
      ∃ t, exec (.setStructuredDaif f l p w m b) s = .next t ∧ t.results = s.results ++ [.status .invalidFieldValue]) ∧
    encode (.setStructuredDaif f l p w m b) = .microOp 0x90000007#32 [f, l, p, w, m, b]

/-- R84: SET_STRUCTURED of SamplingControl. -/
def Obligations.SetStructuredSampling : Prop :=
  ∀ (u b r n o : FieldValue) (s : State),
    (u ≤ 1#16 → b ≤ 1#16 → r ≤ 15#16 → n ≤ 1#16 → o ≤ 1#16 →
      ∃ w : Word, w = u ||| (b <<< 1) ||| (r <<< 2) ||| (n <<< 6) ||| (o <<< 7) ∧
        exec (.setStructuredSc u b r n o) s = .next { s with
          bank := s.bank.set .sc w
          results := s.results ++ [.word w] } ∧ w.extractLsb' 8 8 = 0#8) ∧
    (1#16 < u ∨ 1#16 < b ∨ 15#16 < r ∨ 1#16 < n ∨ 1#16 < o →
      ∃ t, exec (.setStructuredSc u b r n o) s = .next t ∧ t.results = s.results ++ [.status .invalidFieldValue]) ∧
    encode (.setStructuredSc u b r n o) = .microOp 0x90000008#32 [u, b, r, n, o]

/-- R85: SET_STRUCTURED of ActiveControl. -/
def Obligations.SetStructuredActive : Prop :=
  ∀ (a : FieldValue) (s : State),
    (a ≤ 1#16 → exec (.setStructuredAc a) s = .next { s with
        bank := s.bank.set .ac a
        results := s.results ++ [.word a] } ∧ a.extractLsb' 1 15 = 0#15 ∧ (a = 0x0000#16 ∨ a = 0x0001#16)) ∧
    (1#16 < a →
      ∃ t, exec (.setStructuredAc a) s = .next t ∧ t.results = s.results ++ [.status .invalidFieldValue]) ∧
    encode (.setStructuredAc a) = .microOp 0x90000009#32 [a]

/-- R77 with decisions D6 and D18: when a field value is too wide, every variant of SET_STRUCTURED returns InvalidFieldValue and changes
nothing: bank, sequencer, trace and device are as before. `structuredInstr r fv` is the variant of `r` with the operands `fv`. -/
def Obligations.InvalidFieldValueChangesNothing : Prop :=
  ∀ (r : RegId) (fv : List FieldValue) (i : Instr) (s : State), structuredInstr r fv = some i →
    fieldsFit (layout r) fv = false →
    exec i s = .next { s with results := s.results ++ [.status .invalidFieldValue] }

/-- R87 (a) and (b), which the spec derives from R75 to R85: SET_STRUCTURED then GET returns a word that unpacks to the fields given and
whose reserved bits are 0; every other register is as it was, nothing goes to the bus. -/
def Obligations.SetStructuredThenGetReturnsFields : Prop :=
  ∀ (r : RegId) (fv : List FieldValue) (i : Instr) (s : State), structuredInstr r fv = some i →
    fieldsFit (layout r) fv = true →
    ∃ t u w, exec i s = .next t ∧ exec (.get r) t = .next u ∧ u.results = s.results ++ [.word w, .word w] ∧
      unpack r w = fv ∧ w &&& ~~~(mask r) = 0#16 ∧ (∀ q, q ≠ r → u.bank.get q = s.bank.get q) ∧
      u.trace = s.trace ∧ u.seq = s.seq ∧ u.device = s.device ∧ u.statuses = s.statuses ∧ u.inbox = s.inbox

/-! ## The write plumbing -/

/-- R90: WRITE_REG sends the bank's current word, once, and returns the transport's answer; the bank is not changed. -/
def Obligations.WriteRegSendsCurrentWord : Prop :=
  ∀ (r : RegId) (s : State),
    ∃ t, exec (.writeReg r) s = .next t ∧
      t.trace = s.trace ++ [⟨Config.deviceAddr, addr r, s.bank.get r, s.answerAt 0⟩] ∧
      t.results = s.results ++ [.status (if s.answerAt 0 = .busError then .busError else .ok)] ∧
      t.bank = s.bank ∧ t.seq = s.seq ∧ t.statuses = s.statuses ∧ t.inbox = s.inbox ∧ t.placed = s.placed ∧
      addr r ≠ 0x0F#8 ∧ (addr r).toNat = (regIndex r).toNat ∧
      encode (.writeReg r) = .microOp (0xA0000000#32 ||| (regIndex r).setWidth 32) []

/-- R91: WRITE_RAW makes exactly one transport call with the address and the whole word, and returns the answer; it reads and writes no
state of the block. The addresses the programs send to are 0x00 to 0x09 and 0x0F. -/
def Obligations.WriteRawSendsOneFrame : Prop :=
  (∀ (c : Command) (p : ProgStep) (b : RegFile Word), p ∈ program c → (p.frame b).1 ≤ 0x09#8 ∨ (p.frame b).1 = 0x0F#8) ∧
  ∀ (a : Byte) (w : Word) (s : State),
    ∃ t, exec (.writeRaw a w) s = .next t ∧
      t.trace = s.trace ++ [⟨Config.deviceAddr, a, w, s.answerAt 0⟩] ∧
      t.results = s.results ++ [.status (if s.answerAt 0 = .busError then .busError else .ok)] ∧
      t.bank = s.bank ∧ t.seq = s.seq ∧ t.statuses = s.statuses ∧ t.inbox = s.inbox ∧ t.placed = s.placed ∧
      encode (.writeRaw a w) = .microOp (0xB0000000#32 ||| (a.setWidth 32 <<< 16) ||| w.setWidth 32) []

/-- R92: a store is SET_STRUCTURED then WRITE_REG; when the write is answered BusError the bank keeps the new word. -/
def Obligations.StoreKeepsNewWordOnBusError : Prop :=
  ∀ (r : RegId) (fv : List FieldValue) (s : State), fieldsFit (layout r) fv = true →
    (store r fv s).1.bank = s.bank.set r (pack r fv) ∧
    (store r fv s).1.trace = s.trace ++ [⟨Config.deviceAddr, addr r, pack r fv, s.answerAt 0⟩] ∧
    (s.answerAt 0 = .busError → (store r fv s).2 = .busError ∧ (store r fv s).1.bank.get r = pack r fv) ∧
    (s.answerAt 0 = .ok → (store r fv s).2 = .ok)

/-! ## The bus frames -/

/-- The eleven FRAME rows (frameLli, frameRli, frameLhp, frameRhp, frameAapc, frameDapc, framePdc, frameDaif, frameSc, frameAc,
frameRst): executing one is the one MemWrite it is (R43), its answer free (R42, decision D19), and nothing of the block changes but the
trace. That a frame can be executed by itself is the model's choice (log 6). -/
def Obligations.FrameIsOneBusWrite : Prop :=
  ∀ (i : Instr) (f : BitVec 24) (s : State), encode i = .busFrame f → i.wellFormed = true →
    ∃ t, exec i s = .next t ∧
      t.trace = s.trace ++ [⟨Config.deviceAddr, f.extractLsb' 16 8, f.extractLsb' 0 16, s.answerAt 0⟩] ∧
      t.bank = s.bank ∧ t.seq = s.seq ∧ t.statuses = s.statuses ∧ t.results = s.results ∧ t.inbox = s.inbox ∧ t.placed = s.placed

/-- R61: the bits of each frame, address in [23:16], fields at the places of the pattern; a register's frame carries its packed word;
the block always sends reset-code 0. -/
def Obligations.FrameWordsFollowPatterns : Prop :=
  (∀ (r : RegId) (fv : List FieldValue) (i : Instr), frameInstr r fv = some i → encode i = .busFrame (addr r ++ pack r fv)) ∧
  (∀ b : RegFile Word, ProgStep.resetTrigger.frame b = (0x0F#8, 0x0000#16)) ∧
  (∀ v m b : FieldValue, v ≤ 31#16 → m ≤ 1#16 → b ≤ 1#16 →
    encode (.frameLli v m b) = .busFrame (0x000000#24 ||| v.setWidth 24 ||| (m.setWidth 24 <<< 7) ||| (b.setWidth 24 <<< 8)) ∧
    encode (.frameRli v m b) = .busFrame (0x010000#24 ||| v.setWidth 24 ||| (m.setWidth 24 <<< 7) ||| (b.setWidth 24 <<< 8))) ∧
  (∀ v z b : FieldValue, v ≤ 127#16 → z ≤ 1#16 → b ≤ 1#16 →
    encode (.frameLhp v z b) = .busFrame (0x020000#24 ||| v.setWidth 24 ||| (z.setWidth 24 <<< 7) ||| (b.setWidth 24 <<< 8)) ∧
    encode (.frameRhp v z b) = .busFrame (0x030000#24 ||| v.setWidth 24 ||| (z.setWidth 24 <<< 7) ||| (b.setWidth 24 <<< 8))) ∧
  (∀ b m i y d n a : FieldValue, b ≤ 1#16 → m ≤ 1#16 → i ≤ 1#16 → y ≤ 1#16 → d ≤ 1#16 → n ≤ 1#16 → a ≤ 3#16 →
    encode (.frameAapc b m i y d n a) = .busFrame (0x040000#24 ||| b.setWidth 24 ||| (m.setWidth 24 <<< 1) |||
      (i.setWidth 24 <<< 2) ||| (y.setWidth 24 <<< 3) ||| (d.setWidth 24 <<< 4) ||| (n.setWidth 24 <<< 5) |||
      (a.setWidth 24 <<< 6))) ∧
  (∀ a e m h : FieldValue, a ≤ 1#16 → e ≤ 3#16 → m ≤ 1#16 → h ≤ 1#16 →
    encode (.frameDapc a e m h) = .busFrame (0x050000#24 ||| a.setWidth 24 ||| (e.setWidth 24 <<< 1) |||
      (m.setWidth 24 <<< 3) ||| (h.setWidth 24 <<< 4))) ∧
  (∀ l m a d u o c p : FieldValue, l ≤ 1#16 → m ≤ 1#16 → a ≤ 1#16 → d ≤ 1#16 → u ≤ 1#16 → o ≤ 1#16 → c ≤ 1#16 → p ≤ 1#16 →
    encode (.framePdc l m a d u o c p) = .busFrame (0x060000#24 ||| l.setWidth 24 ||| (m.setWidth 24 <<< 1) |||
      (a.setWidth 24 <<< 2) ||| (d.setWidth 24 <<< 3) ||| (u.setWidth 24 <<< 4) ||| (o.setWidth 24 <<< 5) |||
      (c.setWidth 24 <<< 6) ||| (p.setWidth 24 <<< 7))) ∧
  (∀ f l p w m b : FieldValue, f ≤ 3#16 → l ≤ 3#16 → p ≤ 1#16 → w ≤ 1#16 → m ≤ 1#16 → b ≤ 1#16 →
    encode (.frameDaif f l p w m b) = .busFrame (0x070000#24 ||| f.setWidth 24 ||| (l.setWidth 24 <<< 2) |||
      (p.setWidth 24 <<< 4) ||| (w.setWidth 24 <<< 5) ||| (m.setWidth 24 <<< 6) ||| (b.setWidth 24 <<< 7))) ∧
  (∀ u b r n o : FieldValue, u ≤ 1#16 → b ≤ 1#16 → r ≤ 15#16 → n ≤ 1#16 → o ≤ 1#16 →
    encode (.frameSc u b r n o) = .busFrame (0x080000#24 ||| u.setWidth 24 ||| (b.setWidth 24 <<< 1) |||
      (r.setWidth 24 <<< 2) ||| (n.setWidth 24 <<< 6) ||| (o.setWidth 24 <<< 7))) ∧
  (∀ a : FieldValue, a ≤ 1#16 → encode (.frameAc a) = .busFrame (0x090000#24 ||| a.setWidth 24)) ∧
  (∀ c : FieldValue, c ≤ 511#16 → encode (.frameRst c) = .busFrame (0x0F0000#24 ||| c.setWidth 24))

/-! ## The device behind the bus -/

/-- R53: a write to a register's address answered Ok sets that device register to the low nine bits, and no other, except the paired
channel of a gain word with both-update (R55). The word held is meant here; what is in effect may lag behind (log 11). That a word with
power-down bits leaves the other registers alone as well is the model's choice (R139, log 25). -/
def Obligations.DeviceRegisterTakesAcceptedWrite : Prop :=
  ∀ (r : RegId) (v : Word) (s : State), s.answerAt 0 = .ok →
    ∃ t, exec (.writeRaw (addr r) v) s = .next t ∧ t.device.regs.get r = v.setWidth 9 ∧
      ∀ q, q ≠ r → (v.getLsbD 8 = false ∨ pairedReg r ≠ some q) → t.device.regs.get q = s.device.regs.get q

/-- R54: a write to 0x0F answered Ok, whatever its payload, is a full reset of the device; so is the RESET command's. That a full reset
returns every device register to the default image is the spec's reading (decision D24). The words held are meant (log 11), and that a
reset frame can be executed by itself is the model's choice (log 6). -/
def Obligations.ResetTriggerReturnsDeviceToDefaults : Prop :=
  ∀ (v : Word) (s : State), s.answerAt 0 = .ok →
    (∃ t, exec (.writeRaw 0x0F#8 v) s = .next t ∧
      ∀ r, t.device.regs.get r = (defaultImage.get r).setWidth 9) ∧
    (∃ t, exec (.frameRst v) s = .next t ∧
      ∀ r, t.device.regs.get r = (defaultImage.get r).setWidth 9) ∧
    (s.seq = .idle → ∃ t, exec .reset s = .next t ∧
      ∀ r, t.device.regs.get r = (defaultImage.get r).setWidth 9)

/-- R57 with decision D26: after a write answered BusError each device register holds its old word or the one the write would have given
it, the paired channel of a gain word with both-update = 1 (R55) by the copy that BOTH_COPY says (decision D27, log 13); after a failed
reset trigger the device is reset or not. The words held are meant (log 11); that a word with power-down bits leaves the other registers
alone is the model's choice (log 25). -/
def Obligations.FailedWriteLeavesOldOrNewWord : Prop :=
  ∀ (s : State), s.answerAt 0 = .busError →
    (∀ (r : RegId) (v : Word), ∃ t, exec (.writeRaw (addr r) v) s = .next t ∧
      (t.device.regs.get r = s.device.regs.get r ∨ t.device.regs.get r = v.setWidth 9) ∧
      (∀ q, v.getLsbD 8 = true → pairedReg r = some q → t.device.regs.get q = s.device.regs.get q ∨
        t.device.regs.get q = copyInto (copyMask Config.bothCopy r) (s.device.regs.get q) (v.setWidth 9)) ∧
      (∀ q, q ≠ r → (v.getLsbD 8 = false ∨ pairedReg r ≠ some q) → t.device.regs.get q = s.device.regs.get q)) ∧
    (∀ v : Word, ∃ t, exec (.writeRaw 0x0F#8 v) s = .next t ∧
      ((∀ r, t.device.regs.get r = s.device.regs.get r) ∨
        (∀ r, t.device.regs.get r = (defaultImage.get r).setWidth 9)))

/-- R55 with decision D27: with both-update = 1 an accepted gain write gives the paired channel the written volume, whichever reading of
BOTH_COPY holds (log 13). Bits [4:0] are the line-in volume, bits [6:0] the headphone volume. The word held is meant; what is in effect
may lag behind (log 11). -/
def Obligations.LinkedChannelTakesVolume : Prop :=
  ∀ (v : Word) (s : State), s.answerAt 0 = .ok → v.getLsbD 8 = true →
    (∃ t, exec (.writeRaw (addr .lli) v) s = .next t ∧
      (t.device.regs.get .rli).extractLsb' 0 5 = v.extractLsb' 0 5) ∧
    (∃ t, exec (.writeRaw (addr .rli) v) s = .next t ∧
      (t.device.regs.get .lli).extractLsb' 0 5 = v.extractLsb' 0 5) ∧
    (∃ t, exec (.writeRaw (addr .lhp) v) s = .next t ∧
      (t.device.regs.get .rhp).extractLsb' 0 7 = v.extractLsb' 0 7) ∧
    (∃ t, exec (.writeRaw (addr .rhp) v) s = .next t ∧
      (t.device.regs.get .lhp).extractLsb' 0 7 = v.extractLsb' 0 7)

/-- R55, R56: an accepted write that the document gives no reason to defer is in effect at once: the device is active, and the register
is no headphone register. Which writes may be deferred is the model's reading (log 12). -/
def Obligations.UndeferredWriteTakesEffectAtOnce : Prop :=
  ∀ (r : RegId) (v : Word) (s : State), s.answerAt 0 = .ok → (s.device.regs.get .ac).getLsbD 0 = true →
    r ≠ .lhp → r ≠ .rhp →
    ∃ t, exec (.writeRaw (addr r) v) s = .next t ∧ t.device.effect.get r = v.setWidth 9

/-- R55, R56, R154: an effect may be deferred, and nothing else may happen to it. After a write to a register, accepted or failed, what is
in effect on each device register is what was in effect, or the word it held (whose effect arrived), or the word it holds now; in an idle
step a held word's effect may arrive and no register changes. The two words of a register are log 11, which writes may be deferred is
log 12, and when an effect arrives is log 22; the spec leaves the delay open (U10). -/
def Obligations.EffectIsOldOrHeldWord : Prop :=
  (∀ (r : RegId) (v : Word) (s : State), ∃ t, exec (.writeRaw (addr r) v) s = .next t ∧
    ∀ q, t.device.effect.get q = s.device.effect.get q ∨ t.device.effect.get q = s.device.regs.get q ∨
      t.device.effect.get q = t.device.regs.get q) ∧
  (∀ s : State, s.seq = .idle → s.placed = none → s.inbox = [] →
    ∃ t, step s = .next t ∧ t.device.regs = s.device.regs ∧
      ∀ q, t.device.effect.get q = s.device.effect.get q ∨ t.device.effect.get q = s.device.regs.get q)

/-- R5, R36, R133: there is no path from the device to the block. Whatever the device holds, a step has the same outcome but for the
device itself. -/
def Obligations.BlockNeverReadsDevice : Prop :=
  ∀ (s : State) (d : Device),
    (∀ t : State, step s = .next t → ∃ e : Device, step { s with device := d } = .next { t with device := e }) ∧
    (∀ f : Fault, step s = .fault f → step { s with device := d } = .fault f) ∧
    (∀ r : Refusal, step s = .refused r → step { s with device := d } = .refused r)

/-! ## The command port and the step -/

/-- R67, R68 (decision D3): the words the decoder takes for a command are exactly those of the match and mask table, each with its
operand. -/
def Obligations.CommandWordsDecodeByMatchAndMask : Prop :=
  (∀ w : BitVec 32, legalCommandWord w = true ↔ ∃ i, decode (.command w) = .ok i) ∧
  (∀ (w : BitVec 32) (i : Instr), decode (.command w) = .ok i ↔
    (i = .initializeCodec ∧ w = 0x10000000#32) ∨ (i = .reset ∧ w = 0x20000000#32) ∨
    (i = .setLineInVolume (w.extractLsb' 0 16) ∧ w &&& 0xFFFF0000#32 = 0x30000000#32) ∨
    (i = .setHeadphoneVolume (w.extractLsb' 0 16) ∧ w &&& 0xFFFF0000#32 = 0x40000000#32) ∨
    (i = .headphoneMute ∧ w = 0x50000000#32))

/-- R69, R95, R126 (decision D17): a word at the command port that spells no exposed operation, a micro-operation's word among them, is
answered IllegalCommand; nothing else changes and nothing is sent. -/
def Obligations.IllegalCommandChangesNothing : Prop :=
  ∀ (s : State) (w : BitVec 32) (rest : List Request), s.seq = .idle → s.placed = none → s.inbox = .command w :: rest →
    legalCommandWord w = false →
    step s = .next { s with inbox := rest, statuses := s.statuses ++ [.illegalCommand] }

/-- A step in Idle with a command word presented that decodes to an instruction runs exec of that instruction, the word having been taken
(R95, R100; log 1, log 5); so does a step that finds a word of the opcode table placed (log 6); with nothing presented the block does
nothing (R144). -/
def Obligations.StepRunsDecodedInstruction : Prop :=
  (∀ (s : State) (w : BitVec 32) (rest : List Request) (i : Instr), s.seq = .idle → s.placed = none → s.inbox = .command w :: rest →
    decode (.command w) = .ok i → step s = exec i { s with inbox := rest }) ∧
  (∀ (s : State) (e : Encoded) (i : Instr), s.seq = .idle → s.placed = some e →
    decode e = .ok i → step s = exec i { s with placed := none }) ∧
  (∀ (s : State) (nbits w : Nat) (i : Instr), decodeTableWord nbits w = some i →
    step (s.withFetchWord nbits w) = exec i { s with seq := .idle, placed := none }) ∧
  (∀ s : State, s.seq = .idle → s.placed = none → s.inbox = [] →
    ∃ t, step s = .next t ∧ t.bank = s.bank ∧ t.seq = .idle ∧ t.trace = s.trace ∧ t.statuses = s.statuses ∧
      t.results = s.results ∧ t.inbox = [] ∧ t.placed = none ∧ t.answers = s.answers ∧ t.device.regs = s.device.regs)

/-- R99 (decision D16, U15): in Run no request is consumed or has any effect, and a command executed there has no step. -/
def Obligations.RunningSequencerTakesNoRequest : Prop :=
  (∀ (s : State) (c : Command) (k : Nat), s.seq = .run c k → s.seq.InProgram →
    ∃ t, step s = .next t ∧ t.inbox = s.inbox ∧ t.placed = s.placed ∧
      ∀ (q : List Request) (e : Option Encoded), step { s with inbox := q, placed := e } = .next { t with inbox := q, placed := e }) ∧
  (∀ (s : State) (c d : Command) (k : Nat), s.seq = .run c k → exec d.instr s = .fault .busy)

/-- R95, R96 (decision D16), R33: acceptance sets the command and step 1 and nothing else; in Run, step `k` updates at most the stored
register, sends one frame with the stored word, and goes on to `k + 1`, or ends the command with the last Ok (R97) or with BusError
(R98). -/
def Obligations.SequencerPerformsOneStep : Prop :=
  (∀ (c : Command) (s : State), accept c s = { s with seq := .run c 1 }) ∧
  (∀ (s : State) (c : Command) (k : Nat) (p : ProgStep), s.seq = .run c (k + 1) → (program c)[k]? = some p →
    ∃ t, step s = .next t ∧ t.bank = p.update s.bank ∧
      t.trace = s.trace ++
        [⟨Config.deviceAddr, (p.frame (p.update s.bank)).1, (p.frame (p.update s.bank)).2, s.answerAt 0⟩] ∧
      t.results = s.results ∧ t.inbox = s.inbox ∧ t.placed = s.placed ∧
      (s.answerAt 0 = .busError → t.seq = .idle ∧ t.statuses = s.statuses ++ [.busError]) ∧
      (s.answerAt 0 = .ok → k + 1 = (program c).length → t.seq = .idle ∧ t.statuses = s.statuses ++ [.ok]) ∧
      (s.answerAt 0 = .ok → k + 1 < (program c).length → t.seq = .run c (k + 2) ∧ t.statuses = s.statuses))

/-! ## Whole commands -/

/-- R97: when every write is answered Ok the command returns Ok and the sequencer is Idle, all of the program's bank updates and frames
having happened in program order. -/
def Obligations.CommandCompletesWithOk : Prop :=
  ∀ (c : Command) (s : State), s.seq = .idle → (∀ k, k < (program c).length → s.answerAt k = .ok) →
    ∃ t, exec c.instr s = .next t ∧ t.seq = .idle ∧ t.statuses = s.statuses ++ [.ok] ∧
      t.bank = (program c).foldl ProgStep.update s.bank ∧
      ∃ fs : List TraceEntry, t.trace = s.trace ++ fs ∧ fs.length = (program c).length ∧
        ∀ (k : Nat) (p : ProgStep), (program c)[k]? = some p →
          let b := ((program c).take (k + 1)).foldl ProgStep.update s.bank
          fs[k]? = some ⟨Config.deviceAddr, (p.frame b).1, (p.frame b).2, .ok⟩

/-- R98: when write `n + 1` is the first answered BusError the command returns BusError at once, the sequencer is Idle, the bank keeps
the updates of the steps up to that one, exactly `n + 1` frames are sent, and nothing of the later steps happens. -/
def Obligations.CommandAbortsAtFirstBusError : Prop :=
  ∀ (c : Command) (s : State) (n : Nat), s.seq = .idle → n < (program c).length →
    (∀ k, k < n → s.answerAt k = .ok) → s.answerAt n = .busError →
    ∃ t, exec c.instr s = .next t ∧ t.seq = .idle ∧ t.statuses = s.statuses ++ [.busError] ∧
      t.bank = ((program c).take (n + 1)).foldl ProgStep.update s.bank ∧
      ∃ fs : List TraceEntry, t.trace = s.trace ++ fs ∧ fs.length = n + 1 ∧
        ∀ (k : Nat) (p : ProgStep), k ≤ n → (program c)[k]? = some p →
          let b := ((program c).take (k + 1)).foldl ProgStep.update s.bank
          fs[k]? = some ⟨Config.deviceAddr, (p.frame b).1, (p.frame b).2, s.answerAt k⟩

/-- R100: a command executed in Idle leaves the bank, the trace and the status that the function `run` gives, for every sequence of
answers, and nothing else of the block's record. The function is referenceRun, written from the rule. -/
def Obligations.CommandAgreesWithRun : Prop :=
  ∀ (c : Command) (s : State), s.seq = .idle →
    ∃ t, exec c.instr s = .next t ∧ t.seq = .idle ∧
      t.bank = (referenceRun c s.bank s.answerAt).bank ∧
      t.trace = s.trace ++ (referenceRun c s.bank s.answerAt).trace ∧
      t.statuses = s.statuses ++ [(referenceRun c s.bank s.answerAt).status] ∧
      t.results = s.results ∧ t.inbox = s.inbox ∧ t.placed = s.placed ∧
      t.answers = s.answers.drop (referenceRun c s.bank s.answerAt).trace.length

/-- "The step machine of rules R95 to R98 and `run` agree" (R100's derived sentence; log 1): a command executed at once is the same as
its acceptance followed by steps of the machine, one for each write issued and at most eight (R158), the machine being in Run before
each of them. That it ends at all rests on the transport's answering every write (decision D19, U4, log 3). -/
def Obligations.CommandRunsStepByStep : Prop :=
  ∀ (c : Command) (s : State), s.seq = .idle →
    ∃ (n : Nat) (t : State), exec c.instr s = .next t ∧ 1 ≤ n ∧ n ≤ (program c).length ∧ (program c).length ≤ 8 ∧
      Sys2Proof.core.run n (accept c s) = .next t ∧
      ∀ m, m < n → ∃ u : State, Sys2Proof.core.run m (accept c s) = .next u ∧ u.seq = .run c (m + 1)

/-- INITIALIZE with every write answered Ok (R103, R107; the words of steps 2 to 5 are decisions D7 to D10, the addresses D1): eight
frames in the order of R102, the seven stored registers at their words, the other three unchanged. -/
def Obligations.InitializeSucceeds : Prop :=
  ∀ s : State, s.seq = .idle → (∀ k, k < 8 → s.answerAt k = .ok) →
    ∃ t, exec .initializeCodec s = .next t ∧ t.seq = .idle ∧ t.statuses = s.statuses ++ [.ok] ∧
      t.trace = s.trace ++
        [⟨Config.deviceAddr, 0x0F#8, 0x0000#16, .ok⟩, ⟨Config.deviceAddr, 0x06#8, 0x0000#16, .ok⟩,
          ⟨Config.deviceAddr, 0x07#8, 0x000A#16, .ok⟩, ⟨Config.deviceAddr, 0x05#8, 0x0000#16, .ok⟩,
          ⟨Config.deviceAddr, 0x04#8, 0x0015#16, .ok⟩, ⟨Config.deviceAddr, 0x09#8, 0x0001#16, .ok⟩,
          ⟨Config.deviceAddr, 0x00#8, 0x0117#16, .ok⟩, ⟨Config.deviceAddr, 0x02#8, 0x0180#16, .ok⟩] ∧
      t.bank = { s.bank with
        lli := 0x0117#16, lhp := 0x0180#16, aapc := 0x0015#16, dapc := 0x0000#16, pdc := 0x0000#16, daif := 0x000A#16
        ac := 0x0001#16 } ∧
      encode .initializeCodec = .command 0x10000000#32

/-- R104, which the spec derives: for every answers INITIALIZE's frames are a non-empty prefix of the fixed order, all but the last
answered Ok; so ActiveControl (0x09) is written only after 0x07, 0x05 and 0x06 have each been answered Ok, and the first frame is the
reset trigger. -/
def Obligations.InitializeOrderIsFixed : Prop :=
  ∀ s : State, s.seq = .idle →
    ∃ (t : State) (fs : List TraceEntry), exec .initializeCodec s = .next t ∧ t.trace = s.trace ++ fs ∧ fs ≠ [] ∧
      fs.map TraceEntry.address <+: [0x0F#8, 0x06#8, 0x07#8, 0x05#8, 0x04#8, 0x09#8, 0x00#8, 0x02#8] ∧
      (∀ e ∈ fs.dropLast, e.answer = .ok) ∧
      ((∃ e ∈ fs, e.address = 0x09#8) → ∀ a ∈ [0x0F#8, 0x06#8, 0x07#8, 0x05#8, 0x04#8],
        ∃ e ∈ fs, e.address = a ∧ e.answer = .ok)

/-- R109: RESET sends (0x0F, 0x0000) once, returns the answer, and neither reads nor writes the bank; it is step 1 of INITIALIZE. -/
def Obligations.ResetCommandSendsTrigger : Prop :=
  (program .reset = [.resetTrigger] ∧ (program .initializeCodec)[0]? = some .resetTrigger) ∧
  ∀ s : State, s.seq = .idle →
    ∃ t, exec .reset s = .next t ∧ t.seq = .idle ∧
      t.trace = s.trace ++ [⟨Config.deviceAddr, 0x0F#8, 0x0000#16, s.answerAt 0⟩] ∧
      t.statuses = s.statuses ++ [if s.answerAt 0 = .busError then .busError else .ok] ∧
      t.bank = s.bank ∧ t.results = s.results ∧ t.inbox = s.inbox ∧
      encode .reset = .command 0x20000000#32

/-- R117: SET_LINE_IN_VOLUME, for every gain and every answer. The address byte 0x00 is decision D1. -/
def Obligations.SetLineInVolumeStoresCode : Prop :=
  ∀ (g : Gain) (s : State), s.seq = .idle →
    let c : Int := (min (max g.toInt (-345)) 120 + 345) / 15
    let w : Word := 0x0100#16 ||| BitVec.ofInt 16 c
    0 ≤ c ∧ c ≤ 31 ∧
    ∃ t, exec (.setLineInVolume g) s = .next t ∧ t.seq = .idle ∧ t.bank = s.bank.set .lli w ∧
      t.trace = s.trace ++ [⟨Config.deviceAddr, 0x00#8, w, s.answerAt 0⟩] ∧
      t.statuses = s.statuses ++ [if s.answerAt 0 = .busError then .busError else .ok] ∧
      t.results = s.results ∧ t.inbox = s.inbox ∧
      (g.toInt ≤ -345 → w = 0x0100#16) ∧ (120 ≤ g.toInt → w = 0x011F#16) ∧ (g = 0#16 → w = 0x0117#16) ∧
      encode (.setLineInVolume g) = .command (0x30000000#32 ||| g.setWidth 32)

/-- R118: SET_HEADPHONE_VOLUME, for every gain and every answer. The address byte 0x02 is decision D1. -/
def Obligations.SetHeadphoneVolumeStoresCode : Prop :=
  ∀ (g : Gain) (s : State), s.seq = .idle →
    let c : Int := (min (max g.toInt (-1210)) 60 + 1210) / 10
    let w : Word := 0x0180#16 ||| BitVec.ofInt 16 c
    0 ≤ c ∧ c ≤ 127 ∧
    ∃ t, exec (.setHeadphoneVolume g) s = .next t ∧ t.seq = .idle ∧ t.bank = s.bank.set .lhp w ∧
      t.trace = s.trace ++ [⟨Config.deviceAddr, 0x02#8, w, s.answerAt 0⟩] ∧
      t.statuses = s.statuses ++ [if s.answerAt 0 = .busError then .busError else .ok] ∧
      t.results = s.results ∧ t.inbox = s.inbox ∧
      (g.toInt ≤ -1210 → w = 0x0180#16) ∧ (60 ≤ g.toInt → w = 0x01FF#16) ∧ (g = 0#16 → w = 0x01F9#16) ∧
      encode (.setHeadphoneVolume g) = .command (0x40000000#32 ||| g.setWidth 32)

/-- R119: HEADPHONE_MUTE stores the floor code and is SET_HEADPHONE_VOLUME of the range minimum, in every Idle state; it is step 8 of
INITIALIZE. -/
def Obligations.HeadphoneMuteIsMinimumVolume : Prop :=
  program .headphoneMute = ((program .initializeCodec)[7]?).toList ∧
  ∀ s : State, s.seq = .idle →
    (∃ t, exec .headphoneMute s = .next t ∧ t.seq = .idle ∧ t.bank = s.bank.set .lhp 0x0180#16 ∧
      t.trace = s.trace ++ [⟨Config.deviceAddr, 0x02#8, 0x0180#16, s.answerAt 0⟩] ∧
      t.statuses = s.statuses ++ [if s.answerAt 0 = .busError then .busError else .ok] ∧
      t.results = s.results ∧ t.inbox = s.inbox) ∧
    exec .headphoneMute s = exec (.setHeadphoneVolume (BitVec.ofInt 16 (-1210))) s ∧
    encode .headphoneMute = .command 0x50000000#32

/-- R111, R112, R113: clamp, offset and quantise, with the two ranges. -/
def Obligations.QuantiserClampsAndTruncates : Prop :=
  (∀ g lo hi : Int, lo ≤ hi →
    (g < lo → clampGain g lo hi = lo) ∧ (hi < g → clampGain g lo hi = hi) ∧
    (lo ≤ g → g ≤ hi → clampGain g lo hi = g)) ∧
  (∀ g lo hi : Int, lo ≤ hi →
    (gainOffset g lo hi : Int) = clampGain g lo hi - lo ∧ (gainOffset g lo hi : Int) ≤ hi - lo) ∧
  (∀ (g lo hi : Int) (step : Nat), 0 < step →
    step * gainCode g lo hi step ≤ gainOffset g lo hi ∧ gainOffset g lo hi < step * (gainCode g lo hi step + 1)) ∧
  (lineInMin = -345 ∧ lineInMax = 120 ∧ lineInStep = 15 ∧ headphoneMin = -1210 ∧ headphoneMax = 60 ∧ headphoneStep = 10)

/-- R114, R120, which the spec derives: the codes fit their fields; the quantiser is monotone, saturates, is exact on grid points,
truncates between them, never stands above the clamped request, and is idempotent through the code. -/
def Obligations.QuantiserLaws : Prop :=
  (∀ g : Gain, lineInCode g ≤ 31 ∧ headphoneCode g ≤ 127) ∧
  (∀ (g₁ g₂ lo hi : Int) (step : Nat), g₁ ≤ g₂ → gainCode g₁ lo hi step ≤ gainCode g₂ lo hi step) ∧
  (∀ (lo : Int) (step top : Nat), 0 < step →
    (∀ g, g ≤ lo → gainCode g lo (lo + step * top) step = 0) ∧
    (∀ g, lo + step * top ≤ g → gainCode g lo (lo + step * top) step = top) ∧
    (∀ c d : Nat, c ≤ top → d < step → step * c + d ≤ step * top →
      gainCode (lo + step * c + d) lo (lo + step * top) step = c) ∧
    (∀ g, lo + step * gainCode g lo (lo + step * top) step ≤ clampGain g lo (lo + step * top) ∧
      clampGain g lo (lo + step * top) < lo + step * gainCode g lo (lo + step * top) step + step) ∧
    (∀ g, gainCode (lo + step * gainCode g lo (lo + step * top) step) lo (lo + step * top) step =
      gainCode g lo (lo + step * top) step)) ∧
  (lineInMin + lineInStep * 31 = lineInMax ∧ headphoneMin + headphoneStep * 127 = headphoneMax)

/-- R88, R125, which the spec derives: no exposed command returns InvalidFieldValue (or IllegalCommand): its status is Ok or BusError,
and BusError exactly when one of its writes was so answered. -/
def Obligations.CommandsReturnOnlyOkOrBusError : Prop :=
  ∀ (c : Command) (s : State), s.seq = .idle →
    ∃ (t : State) (st : Status) (fs : List TraceEntry), exec c.instr s = .next t ∧ t.statuses = s.statuses ++ [st] ∧
      t.trace = s.trace ++ fs ∧ (st = .ok ∨ st = .busError) ∧
      (st = .busError ↔ ∃ e ∈ fs, e.answer = .busError)

/-- R41, R121, R155, which the spec derives: no command sends to or stores RightLineIn, RightHeadphoneOut or SamplingControl; every
frame goes to DEVICE_ADDR and to 0x00, 0x02, 0x04, 0x05, 0x06, 0x07, 0x09 or 0x0F. -/
def Obligations.CommandsWriteOnlyTheirAddresses : Prop :=
  ∀ (c : Command) (s : State), s.seq = .idle →
    ∃ (t : State) (fs : List TraceEntry), exec c.instr s = .next t ∧ t.trace = s.trace ++ fs ∧
      (∀ e ∈ fs, e.device = Config.deviceAddr ∧
        e.address ∈ [0x00#8, 0x02#8, 0x04#8, 0x05#8, 0x06#8, 0x07#8, 0x09#8, 0x0F#8]) ∧
      t.bank.get .rli = s.bank.get .rli ∧ t.bank.get .rhp = s.bank.get .rhp ∧ t.bank.get .sc = s.bank.get .sc

/-- R152, R153, which the spec derives: after a successful INITIALIZE from a bank whose unstored registers hold their defaults, the
device's registers and the bank agree on all but the two right channels. The words held are meant (log 11). -/
def Obligations.InitializeSynchronisesDevice : Prop :=
  ∀ s : State, s.seq = .idle → s.UnstoredDefault → (∀ k, k < 8 → s.answerAt k = .ok) →
    ∃ t, exec .initializeCodec s = .next t ∧
      ∀ r, r ≠ .rli → r ≠ .rhp → t.device.regs.get r = (t.bank.get r).setWidth 9

/-! ## Invariants and whole-machine rules -/

/-- R17, R33: every step of the machine keeps the invariant: reserved bits of the bank are 0 and the step index is one of the program. -/
def Obligations.StepKeepsInvariant : Prop :=
  ∀ s t : State, s.Inv → step s = .next t → t.Inv

/-- R160: the invariant holds at reset, which is an AnyIdle state whose unstored registers hold their defaults. -/
def Obligations.ResetMeetsInvariant : Prop :=
  State.reset.Inv ∧ State.reset.AnyIdle ∧ State.reset.UnstoredDefault

/-- R160, R106, which the spec derives: a step that takes a command word leaves the machine Idle, and the registers no command stores
keep their defaults. -/
def Obligations.CommandStepsKeepUnstoredDefaults : Prop :=
  ∀ (s : State) (w : BitVec 32) (rest : List Request), s.AnyIdle → s.UnstoredDefault → s.placed = none →
    s.inbox = .command w :: rest →
    ∃ t, step s = .next t ∧ t.AnyIdle ∧ t.UnstoredDefault ∧ t.inbox = rest

/-- R95, R132, R150 (decision D20): whatever is presented, command words, legal or not, and power-on resets, the machine never stops,
whatever came before. Nothing is placed by the model's user (log 6). -/
def Obligations.CommandPortNeverStops : Prop :=
  ∀ s : State, s.seq.InProgram → s.placed = none → ∃ t, step s = .next t

/-- R93, R134, R140, which the spec derives (R93, R140) and decides (R134: D25): whatever is presented, a step sends a frame only for a
command that runs or that it accepts, and each frame is the reset trigger or carries the word that the command has just stored in the
register it goes to. No step places a word, so this holds in every run in which the model's user places none (log 6). -/
def Obligations.BlockSendsOnlyUnderCommand : Prop :=
  ∀ s t : State, s.placed = none → step s = .next t →
    t.placed = none ∧
    ∃ fs : List TraceEntry,
      (t.trace = s.trace ++ fs ∨ (s.seq = .idle ∧ s.inbox.head? = some .hardwareReset ∧ fs = [] ∧ t.trace = [])) ∧
      (fs = [] ∨ ∃ c : Command,
        ((∃ k, s.seq = .run c k) ∨
          (s.seq = .idle ∧ ∃ w rest, s.inbox = .command w :: rest ∧ decode (.command w) = .ok c.instr)) ∧
        ∀ e ∈ fs, (e.address = 0x0F#8 ∧ e.value = 0x0000#16) ∨
          ∃ (r : RegId) (fv : List FieldValue), .store r fv ∈ program c ∧ e.address = addr r ∧ e.value = pack r fv ∧
            t.bank.get r = e.value)

/-- R48, R158: a step appends to the trace, at most eight frames, each to DEVICE_ADDR, and takes nothing back; only power-on reset starts
the trace anew. Statuses and results likewise only grow (log 2). -/
def Obligations.TraceOnlyGrows : Prop :=
  ∀ s t : State, step s = .next t → (s.seq = .idle → s.placed = none → s.inbox.head? ≠ some .hardwareReset) →
    (∃ fs : List TraceEntry, t.trace = s.trace ++ fs ∧ fs.length ≤ 8 ∧ ∀ e ∈ fs, e.device = Config.deviceAddr) ∧
    s.statuses <+: t.statuses ∧ s.results <+: t.results

/-! ## Encoding -/

/-- Decoding an encoded well-formed instruction gives it back, for all 29 constructors and every operand the encoding admits. The binary
forms are decision D3 and the layouts of R61. -/
def Obligations.DecodeInvertsEncode : Prop :=
  ∀ i : Instr, i.wellFormed = true → decode (encode i) = .ok i

/-- Whatever decodes is the encoding of the instruction it decodes to, and that instruction is well formed: no word has two readings and
no bit is ignored (R68, R69, R70; decision D3). -/
def Obligations.EncodeInvertsDecode : Prop :=
  ∀ (e : Encoded) (i : Instr), decode e = .ok i → encode i = e ∧ i.wellFormed = true

/-- A few words written out from R59 to R61 and R67 (decision D3) decode to what they stand for. -/
def Obligations.WrittenOutWordsDecode : Prop :=
  decode (.command 0b00010000000000000000000000000000#32) = .ok .initializeCodec ∧
  decode (.command 0b00110000000000001111111010100111#32) = .ok (.setLineInVolume (BitVec.ofInt 16 (-345))) ∧
  decode (.microOp 0b10000000000000000000000000001001#32 []) = .ok (.get .ac) ∧
  decode (.microOp 0b10010000000000000000000000000000#32 [23#16, 0#16, 1#16]) = .ok (.setStructuredLli 23#16 0#16 1#16) ∧
  decode (.microOp 0b10100000000000000000000000000110#32 []) = .ok (.writeReg .pdc) ∧
  decode (.microOp 0b10110000000011110000000000000000#32 []) = .ok (.writeRaw 0x0F#8 0x0000#16) ∧
  decode (.busFrame 0b000000000000000100010111#24) = .ok (.frameLli 23#16 0#16 1#16) ∧
  decode (.microOp 0b10000000000000000000000000001010#32 []) = .error .noSuchRegister

/-- R123 (decision D4): the status codes, and a bus write's status is the transport's answer unchanged (R124). -/
def Obligations.StatusCodes : Prop :=
  Status.code .ok = 0#2 ∧ Status.code .busError = 1#2 ∧ Status.code .invalidFieldValue = 2#2 ∧
  Status.code .illegalCommand = 3#2 ∧ statusOf .busError = .busError ∧ statusOf .ok = .ok
end

