-- ==== Sys2Proof/Laws/Codec.lean ====
section
/-! SUPPORT. What the register codec does bit by bit (R62 to R64), and the table of addresses as a bijection (R14). -/

namespace Sys2Proof.Machine

theorem getLsbD_fieldLimit (f : Field) (i : Nat) : (fieldLimit f).getLsbD i = (decide (i < 16) && decide (i < f.width)) := by
  simp [fieldLimit, BitVec.getLsbD_ofNat, Nat.testBit_two_pow_sub_one]

/-- One bit of a placed field: within the field it is the value's bit, elsewhere 0. -/
theorem getLsbD_placed (f : Field) (v : FieldValue) (j : Nat) :
    ((v &&& fieldLimit f) <<< f.lo).getLsbD j =
      (decide (j < 16) && decide (f.lo ≤ j) && decide (j < f.lo + f.width) && v.getLsbD (j - f.lo)) := by
  simp only [BitVec.getLsbD_shiftLeft, BitVec.getLsbD_and, getLsbD_fieldLimit]
  by_cases h1 : j < 16 <;> by_cases h2 : f.lo ≤ j <;> by_cases h3 : j < f.lo + f.width <;>
    simp [h1, h2, h3, Nat.not_lt.mpr] <;> omega

/-- One bit of a field of a word. -/
theorem getLsbD_fieldOf (f : Field) (w : Word) (i : Nat) :
    (fieldOf f w).getLsbD i = (decide (i < f.width) && w.getLsbD (f.lo + i)) := by
  simp only [fieldOf, BitVec.getLsbD_and, BitVec.getLsbD_ushiftRight, getLsbD_fieldLimit]
  by_cases h1 : i < 16
  · simp [h1, Bool.and_comm]
  · have : w.getLsbD (f.lo + i) = false := BitVec.getLsbD_of_ge _ _ (by omega)
    simp [this]

/-- A packed word never has a bit outside the mask: reserved bits are written as zero (R16, R62). -/
theorem packFields_getLsbD_of_mask (fs : List Field) (fv : List FieldValue) (j : Nat)
    (h : (maskFields fs).getLsbD j = false) : (packFields fs fv).getLsbD j = false := by
  induction fs generalizing fv with
  | nil => cases fv <;> simp [packFields]
  | cons f fs ih =>
    cases fv with
    | nil => simp [packFields]
    | cons v vs =>
      simp only [maskFields, List.map_cons, packFields, BitVec.getLsbD_or, Bool.or_eq_false_iff] at h ⊢
      refine ⟨?_, ih vs h.2⟩
      have hm := h.1
      rw [getLsbD_placed, getLsbD_fieldLimit] at hm
      rw [getLsbD_placed]
      by_cases h1 : j < 16 <;> by_cases h2 : f.lo ≤ j <;> by_cases h3 : j < f.lo + f.width <;> simp [h1, h2, h3] at hm ⊢
      omega

theorem regAt_addr (r : RegId) : regAt (addr r) = some r := by cases r <;> decide

theorem addr_of_regAt {a : Byte} {r : RegId} (h : regAt a = some r) : addr r = a := by
  have := List.find?_some h
  simpa using this

theorem regOfIndex_regIndex (r : RegId) : regOfIndex (regIndex r) = some r := by cases r <;> decide

/-- Appending a word of `n` bits below another, as numbers. -/
theorem toNat_append_eq {m n : Nat} (x : BitVec m) (y : BitVec n) : (x ++ y).toNat = x.toNat * 2 ^ n + y.toNat := by
  rw [BitVec.toNat_append, ← Nat.shiftLeft_add_eq_or_of_lt y.isLt, Nat.shiftLeft_eq]

theorem toNat_frameWord (a : Byte) (w : Word) : (frameWord a w).toNat = a.toNat * 65536 + w.toNat :=
  toNat_append_eq a w

theorem toNat_rawWord (a : Byte) (w : Word) : (rawWord a w).toNat = 0xB0000000 + a.toNat * 65536 + w.toNat := by
  have h1 := toNat_append_eq (0xB#4 ++ 0#4 ++ a) w
  rw [toNat_append_eq (0xB#4 ++ 0#4) a, show (0xB#4 ++ 0#4).toNat = 0xB0 from rfl] at h1
  refine Eq.trans h1 ?_
  omega

theorem toNat_commandWord (op : BitVec 4) (g : BitVec 16) : (commandWord op g).toNat = op.toNat * 268435456 + g.toNat := by
  have h1 := toNat_append_eq (op ++ 0#12) g
  rw [toNat_append_eq op 0#12, BitVec.toNat_ofNat] at h1
  refine Eq.trans h1 ?_
  omega

theorem toNat_uopWord (op : BitVec 4) (r : RegId) : (uopWord op r).toNat = op.toNat * 268435456 + (regIndex r).toNat := by
  have h1 := toNat_append_eq (op ++ 0#24) (regIndex r)
  rw [toNat_append_eq op 0#24, BitVec.toNat_ofNat] at h1
  refine Eq.trans h1 ?_
  omega

theorem toNat_opField (w : BitVec 32) : (opField w).toNat = w.toNat / 268435456 % 16 := by
  simp [opField, BitVec.extractLsb'_toNat, Nat.shiftRight_eq_div_pow]

theorem toNat_zeroField (w : BitVec 32) : (zeroField w).toNat = w.toNat / 65536 % 4096 := by
  simp [zeroField, BitVec.extractLsb'_toNat, Nat.shiftRight_eq_div_pow]

theorem toNat_argField (w : BitVec 32) : (argField w).toNat = w.toNat % 65536 := by
  simp [argField, BitVec.extractLsb'_toNat]

theorem toNat_uopZeroField (w : BitVec 32) : (uopZeroField w).toNat = w.toNat / 16 % 16777216 := by
  simp [uopZeroField, BitVec.extractLsb'_toNat, Nat.shiftRight_eq_div_pow]

theorem toNat_regField (w : BitVec 32) : (regField w).toNat = w.toNat % 16 := by
  simp [regField, BitVec.extractLsb'_toNat]

theorem toNat_rawZeroField (w : BitVec 32) : (rawZeroField w).toNat = w.toNat / 16777216 % 16 := by
  simp [rawZeroField, BitVec.extractLsb'_toNat, Nat.shiftRight_eq_div_pow]

theorem toNat_rawAddrField (w : BitVec 32) : (rawAddrField w).toNat = w.toNat / 65536 % 256 := by
  simp [rawAddrField, BitVec.extractLsb'_toNat, Nat.shiftRight_eq_div_pow]

theorem toNat_frameAddr (f : BitVec 24) : (frameAddr f).toNat = f.toNat / 65536 % 256 := by
  simp [frameAddr, BitVec.extractLsb'_toNat, Nat.shiftRight_eq_div_pow]

theorem toNat_frameValue (f : BitVec 24) : (frameValue f).toNat = f.toNat % 65536 := by
  simp [frameValue, BitVec.extractLsb'_toNat]

end Sys2Proof.Machine
end

