-- ==== Sys2Proof/Laws/State.lean ====
section
/-! SUPPORT. The small lemmas of the register file and of every named update of State: one per field per update. -/

namespace Sys2Proof.Machine

@[simp] theorem RegFile.get_set_self {α : Type} (b : RegFile α) (r : RegId) (v : α) : (b.set r v).get r = v := by
  cases r <;> rfl

theorem RegFile.get_set_of_ne {α : Type} (b : RegFile α) {q r : RegId} (v : α) (h : q ≠ r) :
    (b.set r v).get q = b.get q := by
  cases q <;> cases r <;> first | rfl | exact absurd rfl h

theorem RegFile.get_set {α : Type} (b : RegFile α) (q r : RegId) (v : α) :
    (b.set r v).get q = if q = r then v else b.get q := by
  split
  · next h => subst h; exact b.get_set_self q v
  · next h => exact b.get_set_of_ne v h

@[simp] theorem RegFile.get_ofFn {α : Type} (f : RegId → α) (r : RegId) : (RegFile.ofFn f).get r = f r := by
  cases r <;> rfl

/-- Two register files that agree at every register are equal. -/
theorem RegFile.ext_get {α : Type} {b c : RegFile α} (h : ∀ r : RegId, b.get r = c.get r) : b = c := by
  cases b
  cases c
  simp only [RegFile.mk.injEq]
  exact ⟨h .lli, h .rli, h .lhp, h .rhp, h .aapc, h .dapc, h .pdc, h .daif, h .sc, h .ac⟩

@[simp] theorem State.writeBank_bank (r : RegId) (w : Word) (s : State) : (s.writeBank r w).bank = s.bank.set r w := rfl
@[simp] theorem State.writeBank_seq (r : RegId) (w : Word) (s : State) : (s.writeBank r w).seq = s.seq := rfl
@[simp] theorem State.writeBank_trace (r : RegId) (w : Word) (s : State) : (s.writeBank r w).trace = s.trace := rfl
@[simp] theorem State.writeBank_statuses (r : RegId) (w : Word) (s : State) : (s.writeBank r w).statuses = s.statuses := rfl
@[simp] theorem State.writeBank_results (r : RegId) (w : Word) (s : State) : (s.writeBank r w).results = s.results := rfl
@[simp] theorem State.writeBank_inbox (r : RegId) (w : Word) (s : State) : (s.writeBank r w).inbox = s.inbox := rfl
@[simp] theorem State.writeBank_placed (r : RegId) (w : Word) (s : State) : (s.writeBank r w).placed = s.placed := rfl
@[simp] theorem State.writeBank_answers (r : RegId) (w : Word) (s : State) : (s.writeBank r w).answers = s.answers := rfl
@[simp] theorem State.writeBank_draws (r : RegId) (w : Word) (s : State) : (s.writeBank r w).draws = s.draws := rfl
@[simp] theorem State.writeBank_device (r : RegId) (w : Word) (s : State) : (s.writeBank r w).device = s.device := rfl

@[simp] theorem State.setSeq_bank (q : Seq) (s : State) : (s.setSeq q).bank = s.bank := rfl
@[simp] theorem State.setSeq_seq (q : Seq) (s : State) : (s.setSeq q).seq = q := rfl
@[simp] theorem State.setSeq_trace (q : Seq) (s : State) : (s.setSeq q).trace = s.trace := rfl
@[simp] theorem State.setSeq_statuses (q : Seq) (s : State) : (s.setSeq q).statuses = s.statuses := rfl
@[simp] theorem State.setSeq_results (q : Seq) (s : State) : (s.setSeq q).results = s.results := rfl
@[simp] theorem State.setSeq_inbox (q : Seq) (s : State) : (s.setSeq q).inbox = s.inbox := rfl
@[simp] theorem State.setSeq_placed (q : Seq) (s : State) : (s.setSeq q).placed = s.placed := rfl
@[simp] theorem State.setSeq_answers (q : Seq) (s : State) : (s.setSeq q).answers = s.answers := rfl
@[simp] theorem State.setSeq_draws (q : Seq) (s : State) : (s.setSeq q).draws = s.draws := rfl
@[simp] theorem State.setSeq_device (q : Seq) (s : State) : (s.setSeq q).device = s.device := rfl

@[simp] theorem State.logResult_bank (m : MicroResult) (s : State) : (s.logResult m).bank = s.bank := rfl
@[simp] theorem State.logResult_seq (m : MicroResult) (s : State) : (s.logResult m).seq = s.seq := rfl
@[simp] theorem State.logResult_trace (m : MicroResult) (s : State) : (s.logResult m).trace = s.trace := rfl
@[simp] theorem State.logResult_statuses (m : MicroResult) (s : State) : (s.logResult m).statuses = s.statuses := rfl
@[simp] theorem State.logResult_results (m : MicroResult) (s : State) : (s.logResult m).results = s.results ++ [m] := rfl
@[simp] theorem State.logResult_inbox (m : MicroResult) (s : State) : (s.logResult m).inbox = s.inbox := rfl
@[simp] theorem State.logResult_placed (m : MicroResult) (s : State) : (s.logResult m).placed = s.placed := rfl
@[simp] theorem State.logResult_answers (m : MicroResult) (s : State) : (s.logResult m).answers = s.answers := rfl
@[simp] theorem State.logResult_draws (m : MicroResult) (s : State) : (s.logResult m).draws = s.draws := rfl
@[simp] theorem State.logResult_device (m : MicroResult) (s : State) : (s.logResult m).device = s.device := rfl

@[simp] theorem State.endCommand_bank (st : Status) (s : State) : (s.endCommand st).bank = s.bank := rfl
@[simp] theorem State.endCommand_seq (st : Status) (s : State) : (s.endCommand st).seq = .idle := rfl
@[simp] theorem State.endCommand_trace (st : Status) (s : State) : (s.endCommand st).trace = s.trace := rfl
@[simp] theorem State.endCommand_statuses (st : Status) (s : State) : (s.endCommand st).statuses = s.statuses ++ [st] := rfl
@[simp] theorem State.endCommand_results (st : Status) (s : State) : (s.endCommand st).results = s.results := rfl
@[simp] theorem State.endCommand_inbox (st : Status) (s : State) : (s.endCommand st).inbox = s.inbox := rfl
@[simp] theorem State.endCommand_placed (st : Status) (s : State) : (s.endCommand st).placed = s.placed := rfl
@[simp] theorem State.endCommand_answers (st : Status) (s : State) : (s.endCommand st).answers = s.answers := rfl
@[simp] theorem State.endCommand_draws (st : Status) (s : State) : (s.endCommand st).draws = s.draws := rfl
@[simp] theorem State.endCommand_device (st : Status) (s : State) : (s.endCommand st).device = s.device := rfl

@[simp] theorem State.setInbox_bank (q : List Request) (s : State) : (s.setInbox q).bank = s.bank := rfl
@[simp] theorem State.setInbox_seq (q : List Request) (s : State) : (s.setInbox q).seq = s.seq := rfl
@[simp] theorem State.setInbox_trace (q : List Request) (s : State) : (s.setInbox q).trace = s.trace := rfl
@[simp] theorem State.setInbox_statuses (q : List Request) (s : State) : (s.setInbox q).statuses = s.statuses := rfl
@[simp] theorem State.setInbox_results (q : List Request) (s : State) : (s.setInbox q).results = s.results := rfl
@[simp] theorem State.setInbox_inbox (q : List Request) (s : State) : (s.setInbox q).inbox = q := rfl
@[simp] theorem State.setInbox_placed (q : List Request) (s : State) : (s.setInbox q).placed = s.placed := rfl
@[simp] theorem State.setInbox_answers (q : List Request) (s : State) : (s.setInbox q).answers = s.answers := rfl
@[simp] theorem State.setInbox_draws (q : List Request) (s : State) : (s.setInbox q).draws = s.draws := rfl
@[simp] theorem State.setInbox_device (q : List Request) (s : State) : (s.setInbox q).device = s.device := rfl

@[simp] theorem State.setPlaced_bank (e : Option Encoded) (s : State) : (s.setPlaced e).bank = s.bank := rfl
@[simp] theorem State.setPlaced_seq (e : Option Encoded) (s : State) : (s.setPlaced e).seq = s.seq := rfl
@[simp] theorem State.setPlaced_trace (e : Option Encoded) (s : State) : (s.setPlaced e).trace = s.trace := rfl
@[simp] theorem State.setPlaced_statuses (e : Option Encoded) (s : State) : (s.setPlaced e).statuses = s.statuses := rfl
@[simp] theorem State.setPlaced_results (e : Option Encoded) (s : State) : (s.setPlaced e).results = s.results := rfl
@[simp] theorem State.setPlaced_inbox (e : Option Encoded) (s : State) : (s.setPlaced e).inbox = s.inbox := rfl
@[simp] theorem State.setPlaced_placed (e : Option Encoded) (s : State) : (s.setPlaced e).placed = e := rfl
@[simp] theorem State.setPlaced_answers (e : Option Encoded) (s : State) : (s.setPlaced e).answers = s.answers := rfl
@[simp] theorem State.setPlaced_draws (e : Option Encoded) (s : State) : (s.setPlaced e).draws = s.draws := rfl
@[simp] theorem State.setPlaced_device (e : Option Encoded) (s : State) : (s.setPlaced e).device = s.device := rfl

@[simp] theorem State.busWrite_bank (a : Byte) (v : Word) (s : State) : (s.busWrite a v).bank = s.bank := rfl
@[simp] theorem State.busWrite_seq (a : Byte) (v : Word) (s : State) : (s.busWrite a v).seq = s.seq := rfl
@[simp] theorem State.busWrite_trace (a : Byte) (v : Word) (s : State) : (s.busWrite a v).trace = s.trace ++ [⟨Config.deviceAddr, a, v, s.answerAt 0⟩] := rfl
@[simp] theorem State.busWrite_statuses (a : Byte) (v : Word) (s : State) : (s.busWrite a v).statuses = s.statuses := rfl
@[simp] theorem State.busWrite_results (a : Byte) (v : Word) (s : State) : (s.busWrite a v).results = s.results := rfl
@[simp] theorem State.busWrite_inbox (a : Byte) (v : Word) (s : State) : (s.busWrite a v).inbox = s.inbox := rfl
@[simp] theorem State.busWrite_placed (a : Byte) (v : Word) (s : State) : (s.busWrite a v).placed = s.placed := rfl
@[simp] theorem State.busWrite_answers (a : Byte) (v : Word) (s : State) : (s.busWrite a v).answers = s.answers.tail := rfl
@[simp] theorem State.busWrite_draws (a : Byte) (v : Word) (s : State) : (s.busWrite a v).draws = s.draws + 1 := rfl
@[simp] theorem State.busWrite_device (a : Byte) (v : Word) (s : State) : (s.busWrite a v).device = s.device.busWrite s.draws a v (s.answerAt 0) := rfl

@[simp] theorem State.idleTick_bank (s : State) : (s.idleTick).bank = s.bank := rfl
@[simp] theorem State.idleTick_seq (s : State) : (s.idleTick).seq = s.seq := rfl
@[simp] theorem State.idleTick_trace (s : State) : (s.idleTick).trace = s.trace := rfl
@[simp] theorem State.idleTick_statuses (s : State) : (s.idleTick).statuses = s.statuses := rfl
@[simp] theorem State.idleTick_results (s : State) : (s.idleTick).results = s.results := rfl
@[simp] theorem State.idleTick_inbox (s : State) : (s.idleTick).inbox = s.inbox := rfl
@[simp] theorem State.idleTick_placed (s : State) : (s.idleTick).placed = s.placed := rfl
@[simp] theorem State.idleTick_answers (s : State) : (s.idleTick).answers = s.answers := rfl
@[simp] theorem State.idleTick_draws (s : State) : (s.idleTick).draws = s.draws + 1 := rfl
@[simp] theorem State.idleTick_device (s : State) : (s.idleTick).device = s.device.settle s.draws := rfl

@[simp] theorem State.powerOnReset_bank (s : State) : (s.powerOnReset).bank = defaultImage := rfl
@[simp] theorem State.powerOnReset_seq (s : State) : (s.powerOnReset).seq = .idle := rfl
@[simp] theorem State.powerOnReset_trace (s : State) : (s.powerOnReset).trace = [] := rfl
@[simp] theorem State.powerOnReset_statuses (s : State) : (s.powerOnReset).statuses = [] := rfl
@[simp] theorem State.powerOnReset_results (s : State) : (s.powerOnReset).results = [] := rfl
@[simp] theorem State.powerOnReset_inbox (s : State) : (s.powerOnReset).inbox = s.inbox := rfl
@[simp] theorem State.powerOnReset_placed (s : State) : (s.powerOnReset).placed = s.placed := rfl
@[simp] theorem State.powerOnReset_answers (s : State) : (s.powerOnReset).answers = s.answers := rfl
@[simp] theorem State.powerOnReset_draws (s : State) : (s.powerOnReset).draws = s.draws := rfl
@[simp] theorem State.powerOnReset_device (s : State) : (s.powerOnReset).device = s.device := rfl

theorem State.answerAt_of_getElem? {s : State} {k : Nat} {a : Answer} (h : s.answers[k]? = some a) : s.answerAt k = a := by
  simp only [State.answerAt, h]

/-- After a bus write the answers are numbered one further on. -/
theorem State.answerAt_busWrite (s : State) (a : Byte) (v : Word) (k : Nat) :
    (s.busWrite a v).answerAt k = s.answerAt (k + 1) := by
  simp [State.answerAt, Nat.add_assoc, Nat.add_comm 1 k]

@[simp] theorem State.answerAt_writeBank (s : State) (r : RegId) (w : Word) (k : Nat) :
    (s.writeBank r w).answerAt k = s.answerAt k := rfl

@[simp] theorem State.answerAt_setSeq (s : State) (q : Seq) (k : Nat) : (s.setSeq q).answerAt k = s.answerAt k := rfl

end Sys2Proof.Machine
end

