-- ==== Sys2Proof/Laws/Ops.lean ====
section
/-! SUPPORT. One lemma for each shared operation that says everything it does: the provers cite these and do not unfold. -/

namespace Sys2Proof.Machine

@[simp] theorem memWrite_state (a : Byte) (v : Word) (s : State) : (memWrite a v s).1 = s.busWrite a v := rfl
@[simp] theorem memWrite_answer (a : Byte) (v : Word) (s : State) : (memWrite a v s).2 = s.answerAt 0 := rfl

@[simp] theorem writeRaw_state (a : Byte) (w : Word) (s : State) : (writeRaw a w s).1 = s.busWrite a w := rfl
@[simp] theorem writeRaw_status (a : Byte) (w : Word) (s : State) : (writeRaw a w s).2 = statusOf (s.answerAt 0) := rfl

theorem writeReg_eq (r : RegId) (s : State) : writeReg r s = writeRaw (addr r) (s.bank.get r) s := rfl

/-- SET_STRUCTURED with fields that fit (R77). -/
theorem setStructured_of_fits {r : RegId} {fv : List FieldValue} (h : fieldsFit (layout r) fv = true) (s : State) :
    setStructured r fv s = .ok (s.writeBank r (pack r fv), pack r fv) := by
  simp only [setStructured, h, if_true]

/-- SET_STRUCTURED with a field that does not fit (R77). -/
theorem setStructured_of_not_fits {r : RegId} {fv : List FieldValue} (h : fieldsFit (layout r) fv = false) (s : State) :
    setStructured r fv s = .error .invalidFieldValue := by
  simp only [setStructured, h, Bool.false_eq_true, if_false]

/-- `store` with fields that fit: the bank is written, then one frame carries the new word (R92). -/
theorem store_of_fits {r : RegId} {fv : List FieldValue} (h : fieldsFit (layout r) fv = true) (s : State) :
    store r fv s = ((s.writeBank r (pack r fv)).busWrite (addr r) (pack r fv), statusOf (s.answerAt 0)) := by
  simp only [store, setStructured_of_fits h, writeReg_eq, writeRaw, memWrite, State.writeBank_bank, RegFile.get_set_self,
    State.answerAt_writeBank]

/-- `store` with a field that does not fit changes nothing (R127). -/
theorem store_of_not_fits {r : RegId} {fv : List FieldValue} (h : fieldsFit (layout r) fv = false) (s : State) :
    store r fv s = (s, .invalidFieldValue) := by
  simp only [store, setStructured_of_not_fits h]

/-- SET_STRUCTURED as a micro-operation, both outcomes (R60, R77). -/
theorem runSetStructured_eq (r : RegId) (fv : List FieldValue) (s : State) :
    runSetStructured r fv s =
      .next (if fieldsFit (layout r) fv then (s.writeBank r (pack r fv)).logResult (.word (pack r fv))
        else s.logResult (.status .invalidFieldValue)) := by
  cases h : fieldsFit (layout r) fv
  · simp [runSetStructured, setStructured_of_not_fits h]
  · simp [runSetStructured, setStructured_of_fits h]

/-- One sequencer step answered Ok that is not the last (R96). -/
theorem seqStep_of_ok_of_ne {c : Command} {k : Nat} {p : ProgStep} {s : State} (h : (performStep p s).2 = .ok)
    (hk : k ≠ (program c).length) : seqStep c k p s = (performStep p s).1.setSeq (.run c (k + 1)) := by
  simp only [seqStep, h, if_neg hk]

/-- The last sequencer step answered Ok (R97). -/
theorem seqStep_of_ok_of_last {c : Command} {k : Nat} {p : ProgStep} {s : State} (h : (performStep p s).2 = .ok)
    (hk : k = (program c).length) : seqStep c k p s = (performStep p s).1.endCommand .ok := by
  simp only [seqStep, h, if_pos hk]

/-- A sequencer step that ends with an error (R98). -/
theorem seqStep_of_ne_ok {c : Command} {k : Nat} {p : ProgStep} {s : State} (h : (performStep p s).2 ≠ .ok) :
    seqStep c k p s = (performStep p s).1.endCommand (performStep p s).2 := by
  unfold seqStep
  split
  · next heq => exact absurd heq h
  · rfl

/-- Every variant of SET_STRUCTURED runs the one shared operation on its register and operands (R77). -/
theorem exec_of_structuredInstr {r : RegId} {fv : List FieldValue} {i : Instr} (h : structuredInstr r fv = some i)
    (s : State) : exec i s = runSetStructured r fv s := by
  unfold structuredInstr at h
  split at h <;> first | (cases h; rfl) | cases h

/-- Every register's frame is the one bus write of its packed word (R42, R61). -/
theorem exec_of_frameInstr {r : RegId} {fv : List FieldValue} {i : Instr} (h : frameInstr r fv = some i) (s : State) :
    exec i s = .next (s.busWrite (addr r) (pack r fv)) := by
  unfold frameInstr at h
  split at h <;> first | (cases h; rfl) | cases h

/-- Every command's instruction runs its command (R67). -/
theorem exec_of_command (c : Command) (s : State) : exec c.instr s = runCommand c s := by cases c <;> rfl

/-- A command in Idle runs its whole program (R100). -/
theorem runCommand_of_idle {c : Command} {s : State} (h : s.seq = .idle) :
    runCommand c s = .next (runSteps c (program c) 1 (accept c s)) := by
  simp only [runCommand, h]

end Sys2Proof.Machine
end

