-- ==== Sys2Proof/Laws/Device.lean ====
section
/-! SUPPORT. What the device's operations do, register by register (20_memory.md R53 to R57): the word held, and the word in effect. -/

namespace Sys2Proof.Machine

@[simp] theorem Device.settle_regs (n : Nat) (d : Device) : (d.settle n).regs = d.regs := rfl

@[simp] theorem Device.put_regs (n : Nat) (sent : Word9) (r : RegId) (v : Word9) (d : Device) :
    (d.put n sent r v).regs = d.regs.set r v := rfl

/-- An effect that arrives is that of the word held (R55, R56). -/
theorem Device.settle_effect (n : Nat) (d : Device) (q : RegId) :
    (d.settle n).effect.get q = d.effect.get q ∨ (d.settle n).effect.get q = d.regs.get q := by
  simp only [Device.settle, RegFile.get_ofFn]
  split
  · exact .inr rfl
  · exact .inl rfl

/-- What is in effect after a change of one register: what was, or for that register the new word. -/
theorem Device.put_effect (n : Nat) (sent : Word9) (r : RegId) (v : Word9) (d : Device) (q : RegId) :
    (d.put n sent r v).effect.get q = d.effect.get q ∨ q = r ∧ (d.put n sent r v).effect.get q = v := by
  simp only [Device.put]
  split
  · exact .inl rfl
  · by_cases h : q = r
    · subst h
      exact .inr ⟨rfl, RegFile.get_set_self _ _ _⟩
    · exact .inl (RegFile.get_set_of_ne _ _ h)

theorem pairedReg_ne {r q : RegId} (h : pairedReg r = some q) : r ≠ q := by
  cases r <;> simp [pairedReg] at h <;> subst h <;> decide

theorem linkedReg_eq_some {r q : RegId} {v : Word9} : linkedReg r v = some q ↔ v.getLsbD 8 = true ∧ pairedReg r = some q := by
  simp [linkedReg]

/-- Every register's held word after a write (R53, R55). -/
theorem Device.write_regs (n : Nat) (r : RegId) (v : Word9) (d : Device) (q : RegId) :
    (d.write n r v).regs.get q =
      if q = r then v
      else if linkedReg r v = some q then copyInto (copyMask Config.bothCopy r) (d.regs.get q) v
      else d.regs.get q := by
  unfold Device.write
  split
  · next h => simp [RegFile.get_set, h]
  · next p h =>
    have hne : r ≠ p := pairedReg_ne (linkedReg_eq_some.mp h).2
    simp only [Device.put_regs, RegFile.get_set, h, Option.some.injEq]
    by_cases h1 : q = p
    · subst h1
      simp [Ne.symm hne]
    · simp [h1, Ne.symm h1]

/-- What is in effect after a write: what was, or the word now held (R55, R56). -/
theorem Device.write_effect (n : Nat) (r : RegId) (v : Word9) (d : Device) (q : RegId) :
    (d.write n r v).effect.get q = d.effect.get q ∨ (d.write n r v).effect.get q = (d.write n r v).regs.get q := by
  unfold Device.write
  split
  · rcases d.put_effect n v r v q with h | ⟨rfl, h⟩
    · exact .inl h
    · exact .inr (by rw [h, Device.put_regs, RegFile.get_set_self])
  · next p hp =>
    have hne : r ≠ p := pairedReg_ne (linkedReg_eq_some.mp hp).2
    rcases (d.put n v r v).put_effect n v p (copyInto (copyMask Config.bothCopy r) (d.regs.get p) v) q with h | ⟨rfl, h⟩
    · rcases d.put_effect n v r v q with h' | ⟨rfl, h'⟩
      · exact .inl (h.trans h')
      · exact .inr (by rw [h, h', Device.put_regs, RegFile.get_set_of_ne _ _ hne, Device.put_regs, RegFile.get_set_self])
    · exact .inr (by rw [h, Device.put_regs, RegFile.get_set_self])

theorem addr_ne_resetAddr (r : RegId) : addr r ≠ resetAddr := by cases r <;> decide

/-- A register's write that is accepted (R53). -/
theorem Device.accept_addr (n : Nat) (r : RegId) (v : Word) (d : Device) : d.accept n (addr r) v = d.write n r (v.setWidth 9) := by
  simp [Device.accept, addr_ne_resetAddr, regAt_addr]

/-- A register's write that fails (R57). -/
theorem Device.reject_addr (n : Nat) (r : RegId) (v : Word) (d : Device) :
    d.reject n (addr r) v = d.mix (Config.failedWriteTook n) (d.write n r (v.setWidth 9)) := by
  simp [Device.reject, addr_ne_resetAddr, regAt_addr]

theorem Device.powerOn_regs (r : RegId) : Device.powerOn.regs.get r = (defaultImage.get r).setWidth 9 := by
  simp [Device.powerOn]

/-- WRITE_RAW as one equation (R91). -/
theorem exec_writeRaw (a : Byte) (w : Word) (s : State) :
    exec (.writeRaw a w) s = .next ((s.busWrite a w).logResult (.status (statusOf (s.answerAt 0)))) := rfl

end Sys2Proof.Machine
end

