-- ==== Sys2Proof/Laws/PerInstr.lean ====
section
/-! SUPPORT. The opcode table, row by row: the encoding of every well-formed instruction has its row's width and meets its row's match
under its row's mask (spec/opcode_table.json; R61, R68). -/

namespace Sys2Proof.Laws.TableRow

open Sys2Proof Sys2Proof.Machine

/-- A row's `width`, `mask` and `match`, copied from spec/opcode_table.json. -/
structure Row where
  nbits : Nat
  mask  : Nat
  value : Nat

/-- The row of an instruction. -/
def row : Instr → Row
  | .initializeCodec => ⟨32, 0xFFFFFFFF, 0x10000000⟩
  | .reset => ⟨32, 0xFFFFFFFF, 0x20000000⟩
  | .setLineInVolume _ => ⟨32, 0xFFFF0000, 0x30000000⟩
  | .setHeadphoneVolume _ => ⟨32, 0xFFFF0000, 0x40000000⟩
  | .headphoneMute => ⟨32, 0xFFFFFFFF, 0x50000000⟩
  | .get _ => ⟨32, 0xFFFFFFF0, 0x80000000⟩
  | .setStructuredLli _ _ _ => ⟨32, 0xFFFFFFFF, 0x90000000⟩
  | .setStructuredRli _ _ _ => ⟨32, 0xFFFFFFFF, 0x90000001⟩
  | .setStructuredLhp _ _ _ => ⟨32, 0xFFFFFFFF, 0x90000002⟩
  | .setStructuredRhp _ _ _ => ⟨32, 0xFFFFFFFF, 0x90000003⟩
  | .setStructuredAapc _ _ _ _ _ _ _ => ⟨32, 0xFFFFFFFF, 0x90000004⟩
  | .setStructuredDapc _ _ _ _ => ⟨32, 0xFFFFFFFF, 0x90000005⟩
  | .setStructuredPdc _ _ _ _ _ _ _ _ => ⟨32, 0xFFFFFFFF, 0x90000006⟩
  | .setStructuredDaif _ _ _ _ _ _ => ⟨32, 0xFFFFFFFF, 0x90000007⟩
  | .setStructuredSc _ _ _ _ _ => ⟨32, 0xFFFFFFFF, 0x90000008⟩
  | .setStructuredAc _ => ⟨32, 0xFFFFFFFF, 0x90000009⟩
  | .writeReg _ => ⟨32, 0xFFFFFFF0, 0xA0000000⟩
  | .writeRaw _ _ => ⟨32, 0xFF000000, 0xB0000000⟩
  | .frameLli _ _ _ => ⟨24, 0xFFFE60, 0x000000⟩
  | .frameRli _ _ _ => ⟨24, 0xFFFE60, 0x010000⟩
  | .frameLhp _ _ _ => ⟨24, 0xFFFE00, 0x020000⟩
  | .frameRhp _ _ _ => ⟨24, 0xFFFE00, 0x030000⟩
  | .frameAapc _ _ _ _ _ _ _ => ⟨24, 0xFFFF00, 0x040000⟩
  | .frameDapc _ _ _ _ => ⟨24, 0xFFFFE0, 0x050000⟩
  | .framePdc _ _ _ _ _ _ _ _ => ⟨24, 0xFFFF00, 0x060000⟩
  | .frameDaif _ _ _ _ _ _ => ⟨24, 0xFFFF00, 0x070000⟩
  | .frameSc _ _ _ _ _ => ⟨24, 0xFFFF00, 0x080000⟩
  | .frameAc _ => ⟨24, 0xFFFFFE, 0x090000⟩
  | .frameRst _ => ⟨24, 0xFFFE00, 0x0F0000⟩

/-- A raw word meets a row. -/
def meets (e : Encoded) (r : Row) : Prop :=
  match e with
  | .command w => r.nbits = 32 ∧ w &&& BitVec.ofNat 32 r.mask = BitVec.ofNat 32 r.value
  | .microOp w _ => r.nbits = 32 ∧ w &&& BitVec.ofNat 32 r.mask = BitVec.ofNat 32 r.value
  | .busFrame f => r.nbits = 24 ∧ f &&& BitVec.ofNat 24 r.mask = BitVec.ofNat 24 r.value

/-- The encoding of the instruction meets its row, well formed or not: packing never sets a reserved bit (log 18). -/
def Statement (i : Instr) : Prop := meets (encode i) (row i)

/-- A masked word with only its fixed bits above bit 15. -/
theorem and_high (a w : BitVec 16) (m v : BitVec 32) (hm : m = 0xFFFF#16 ++ 0#16) (hv : v = a ++ 0#16) :
    (a ++ w) &&& m = v := by
  subst hm
  subst hv
  rw [BitVec.and_append, show (0xFFFF#16) = BitVec.allOnes 16 from by decide, BitVec.and_allOnes]
  simp

/-- A frame under a mask that keeps the address and the reserved bits. -/
theorem frame_meets (fs : List Field) (fv : List FieldValue) (a : Byte) (k : Word) (m v : BitVec 24)
    (h : k &&& maskFields fs = 0#16) (hm : m = 0xFF#8 ++ k) (hv : v = frameWord a 0#16) : frameWord a (packFields fs fv) &&& m = v := by
  subst hm
  subst hv
  rw [frameWord, BitVec.and_append]
  have h1 : packFields fs fv &&& k = 0#16 := by
    apply BitVec.eq_of_getLsbD_eq
    intro i hi
    have h2 : (k &&& maskFields fs).getLsbD i = false := by rw [h]; simp
    rw [BitVec.getLsbD_and] at h2 ⊢
    cases hm : (maskFields fs).getLsbD i
    · rw [packFields_getLsbD_of_mask fs fv i hm]; simp
    · rw [hm] at h2; simp only [Bool.and_true] at h2; rw [h2]; simp
  have h3 : a &&& 0xFF#8 = a := by
    rw [show (0xFF#8) = BitVec.allOnes 8 from by decide, BitVec.and_allOnes]
  rw [h1, h3]
  rfl

theorem initializeCodec : Statement .initializeCodec := ⟨rfl, by decide⟩
theorem reset : Statement .reset := ⟨rfl, by decide⟩
theorem setLineInVolume (g : Gain) : Statement (.setLineInVolume g) := ⟨rfl, and_high (0x3#4 ++ 0#12) g 0xFFFF0000#32 0x30000000#32 (by decide) (by decide)⟩
theorem setHeadphoneVolume (g : Gain) : Statement (.setHeadphoneVolume g) := ⟨rfl, and_high (0x4#4 ++ 0#12) g 0xFFFF0000#32 0x40000000#32 (by decide) (by decide)⟩
theorem headphoneMute : Statement .headphoneMute := ⟨rfl, by decide⟩
theorem get (r : RegId) : Statement (.get r) := ⟨rfl, by cases r <;> decide⟩
theorem setStructuredLli (v m b : FieldValue) : Statement (.setStructuredLli v m b) :=
  ⟨rfl, show uopWord 0x9#4 .lli &&& 0xFFFFFFFF#32 = 0x90000000#32 by decide⟩
theorem setStructuredRli (v m b : FieldValue) : Statement (.setStructuredRli v m b) :=
  ⟨rfl, show uopWord 0x9#4 .rli &&& 0xFFFFFFFF#32 = 0x90000001#32 by decide⟩
theorem setStructuredLhp (v z b : FieldValue) : Statement (.setStructuredLhp v z b) :=
  ⟨rfl, show uopWord 0x9#4 .lhp &&& 0xFFFFFFFF#32 = 0x90000002#32 by decide⟩
theorem setStructuredRhp (v z b : FieldValue) : Statement (.setStructuredRhp v z b) :=
  ⟨rfl, show uopWord 0x9#4 .rhp &&& 0xFFFFFFFF#32 = 0x90000003#32 by decide⟩
theorem setStructuredAapc (b m i y d s a : FieldValue) : Statement (.setStructuredAapc b m i y d s a) :=
  ⟨rfl, show uopWord 0x9#4 .aapc &&& 0xFFFFFFFF#32 = 0x90000004#32 by decide⟩
theorem setStructuredDapc (a e m h : FieldValue) : Statement (.setStructuredDapc a e m h) :=
  ⟨rfl, show uopWord 0x9#4 .dapc &&& 0xFFFFFFFF#32 = 0x90000005#32 by decide⟩
theorem setStructuredPdc (l m a d u o c p : FieldValue) : Statement (.setStructuredPdc l m a d u o c p) :=
  ⟨rfl, show uopWord 0x9#4 .pdc &&& 0xFFFFFFFF#32 = 0x90000006#32 by decide⟩
theorem setStructuredDaif (f l p s m b : FieldValue) : Statement (.setStructuredDaif f l p s m b) :=
  ⟨rfl, show uopWord 0x9#4 .daif &&& 0xFFFFFFFF#32 = 0x90000007#32 by decide⟩
theorem setStructuredSc (u b r i o : FieldValue) : Statement (.setStructuredSc u b r i o) :=
  ⟨rfl, show uopWord 0x9#4 .sc &&& 0xFFFFFFFF#32 = 0x90000008#32 by decide⟩
theorem setStructuredAc (a : FieldValue) : Statement (.setStructuredAc a) :=
  ⟨rfl, show uopWord 0x9#4 .ac &&& 0xFFFFFFFF#32 = 0x90000009#32 by decide⟩
theorem writeReg (r : RegId) : Statement (.writeReg r) := ⟨rfl, by cases r <;> decide⟩
theorem writeRaw (a : Byte) (w : Word) : Statement (.writeRaw a w) := by
  refine ⟨rfl, show ((0xB#4 ++ 0#4) ++ a ++ w) &&& 0xFF000000#32 = 0xB0000000#32 from ?_⟩
  rw [show (0xFF000000#32) = (((0xFF#8) ++ 0#8) ++ 0#16) from by decide, BitVec.and_append, BitVec.and_append]
  simp
theorem frameLli (v m b : FieldValue) : Statement (.frameLli v m b) :=
  ⟨rfl, frame_meets (layout .lli) [v, m, b] 0x00#8 0xFE60#16 0xFFFE60#24 0x000000#24 (by decide) (by decide) (by decide)⟩
theorem frameRli (v m b : FieldValue) : Statement (.frameRli v m b) :=
  ⟨rfl, frame_meets (layout .rli) [v, m, b] 0x01#8 0xFE60#16 0xFFFE60#24 0x010000#24 (by decide) (by decide) (by decide)⟩
theorem frameLhp (v z b : FieldValue) : Statement (.frameLhp v z b) :=
  ⟨rfl, frame_meets (layout .lhp) [v, z, b] 0x02#8 0xFE00#16 0xFFFE00#24 0x020000#24 (by decide) (by decide) (by decide)⟩
theorem frameRhp (v z b : FieldValue) : Statement (.frameRhp v z b) :=
  ⟨rfl, frame_meets (layout .rhp) [v, z, b] 0x03#8 0xFE00#16 0xFFFE00#24 0x030000#24 (by decide) (by decide) (by decide)⟩
theorem frameAapc (b m i y d s a : FieldValue) : Statement (.frameAapc b m i y d s a) :=
  ⟨rfl, frame_meets (layout .aapc) [b, m, i, y, d, s, a] 0x04#8 0xFF00#16 0xFFFF00#24 0x040000#24 (by decide) (by decide) (by decide)⟩
theorem frameDapc (a e m h : FieldValue) : Statement (.frameDapc a e m h) :=
  ⟨rfl, frame_meets (layout .dapc) [a, e, m, h] 0x05#8 0xFFE0#16 0xFFFFE0#24 0x050000#24 (by decide) (by decide) (by decide)⟩
theorem framePdc (l m a d u o c p : FieldValue) : Statement (.framePdc l m a d u o c p) :=
  ⟨rfl, frame_meets (layout .pdc) [l, m, a, d, u, o, c, p] 0x06#8 0xFF00#16 0xFFFF00#24 0x060000#24 (by decide) (by decide) (by decide)⟩
theorem frameDaif (f l p s m b : FieldValue) : Statement (.frameDaif f l p s m b) :=
  ⟨rfl, frame_meets (layout .daif) [f, l, p, s, m, b] 0x07#8 0xFF00#16 0xFFFF00#24 0x070000#24 (by decide) (by decide) (by decide)⟩
theorem frameSc (u b r i o : FieldValue) : Statement (.frameSc u b r i o) :=
  ⟨rfl, frame_meets (layout .sc) [u, b, r, i, o] 0x08#8 0xFF00#16 0xFFFF00#24 0x080000#24 (by decide) (by decide) (by decide)⟩
theorem frameAc (a : FieldValue) : Statement (.frameAc a) :=
  ⟨rfl, frame_meets (layout .ac) [a] 0x09#8 0xFFFE#16 0xFFFFFE#24 0x090000#24 (by decide) (by decide) (by decide)⟩
theorem frameRst (c : FieldValue) : Statement (.frameRst c) :=
  ⟨rfl, frame_meets resetLayout [c] resetAddr 0xFE00#16 0xFFFE00#24 0x0F0000#24 (by decide) (by decide) (by decide)⟩

end Sys2Proof.Laws.TableRow
end

