-- ==== Sys2Proof/Laws/Sequencer.lean ====
section
/-! SUPPORT. The programs of the commands have fields that fit (R88, R114), and what one program step does (R96). -/

namespace Sys2Proof.Machine

/-- The field values of a program step fit their fields. -/
def ProgStep.fits : ProgStep → Bool
  | .store r fv => fieldsFit (layout r) fv
  | .resetTrigger => true

theorem gainCode_le {g lo hi : Int} {step top : Nat} (h1 : hi - lo ≤ step * top) : gainCode g lo hi step ≤ top := by
  have h2 : gainOffset g lo hi ≤ step * top := by
    unfold gainOffset clampGain
    omega
  exact Nat.div_le_of_le_mul h2

/-- "always in [0,31]" (R114). -/
theorem lineInCode_le (g : Gain) : lineInCode g ≤ 31 := gainCode_le (by decide)

/-- "always in [0,127]" (R114). -/
theorem headphoneCode_le (g : Gain) : headphoneCode g ≤ 127 := gainCode_le (by decide)

theorem storeLineIn_fits {code : Nat} (h : code ≤ 31) : (storeLineIn code).fits = true := by
  have h1 : BitVec.ofNat 16 code ≤ 31#16 := by
    simp only [BitVec.le_def, BitVec.toNat_ofNat]
    omega
  simp [storeLineIn, ProgStep.fits, layout, fieldsFit, fieldLimit, h1]

theorem storeHeadphone_fits {code : Nat} (h : code ≤ 127) : (storeHeadphone code).fits = true := by
  have h1 : BitVec.ofNat 16 code ≤ 127#16 := by
    simp only [BitVec.le_def, BitVec.toNat_ofNat]
    omega
  simp [storeHeadphone, ProgStep.fits, layout, fieldsFit, fieldLimit, h1]

/-- "Every field value those programs pass is a constant or a code proved to be in range" (R88). -/
theorem program_fits {c : Command} {p : ProgStep} (h : p ∈ program c) : p.fits = true := by
  cases c <;> simp only [program, programReset, programLineIn, programHeadphone, programMute, List.mem_singleton] at h
  case initializeCodec => revert p; decide
  case reset => subst h; rfl
  case setLineInVolume g => subst h; exact storeLineIn_fits (lineInCode_le g)
  case setHeadphoneVolume g => subst h; exact storeHeadphone_fits (headphoneCode_le g)
  case headphoneMute => subst h; exact storeHeadphone_fits (by decide)

/-- What a program step with fields that fit does: the bank update, then one frame over the updated bank; its status is the transport's
answer (R96, R100). -/
theorem performStep_of_fits {p : ProgStep} (h : p.fits = true) (s : State) :
    performStep p s =
      (State.busWrite (p.frame (p.update s.bank)).1 (p.frame (p.update s.bank)).2 { s with bank := p.update s.bank },
        statusOf (s.answerAt 0)) := by
  cases p with
  | resetTrigger => rfl
  | store r fv =>
    simp only [performStep, store_of_fits h, ProgStep.frame, ProgStep.update, RegFile.get_set_self]
    rfl

/-- The step index of every program's last step (R94: 8 for INITIALIZE, 1 for each other command). -/
theorem program_length (c : Command) : (program c).length = 8 ∨ (program c).length = 1 := by
  cases c <;> first | exact .inl rfl | exact .inr rfl

end Sys2Proof.Machine
end

