-- ==== Sys2Proof/Tests/Slice0.lean ====
section
/-! SUPPORT. Tests: every expected value is from spec/95_test_vectors.md (V and S numbers, P programs) or written out from the encodings
of 30_encoding.md. Then, for every obligation with hypotheses, a witness: a concrete state and operands that meet them together. -/

namespace Sys2Proof.Tests

open Sys2Proof Sys2Proof.Machine

/-! ## Helpers -/

/-- The state after reset with the transport's next answers fixed. -/
def start (as : List Answer) : State := { State.reset with answers := as }

/-- The same with requests presented. -/
def present (q : List Request) : State := { State.reset with inbox := q }

/-- The state after reset with a word placed (log 6). -/
def placing (e : Encoded) : State := { State.reset with placed := some e }

/-- The ten bank words in the order of the spec's vectors. -/
def words (s : State) : List Word := allRegs.map s.bank.get

/-- The frames of the trace with their answers, the device address left out as in the spec's vectors. -/
def frames (s : State) : List (Byte × Word × Answer) := s.trace.map (fun e => (e.address, e.value, e.answer))

/-- One part of the next state. -/
def got {α : Type} (f : State → α) (o : Host.Outcome State Fault Refusal) : Option α :=
  match o with
  | .next s => some (f s)
  | .fault _ => none
  | .refused _ => none

/-- Why the machine refused. -/
def why (o : Host.Outcome State Fault Refusal) : Option Refusal :=
  match o with
  | .refused r => some r
  | .next _ => none
  | .fault _ => none

/-- What the decoder reads, or its reason. -/
def read (e : Encoded) : Instr ⊕ DecodeError :=
  match decode e with
  | .ok i => .inl i
  | .error x => .inr x

/-! ## Well-formedness: one ill-formed term for each check -/

theorem test_wf_frame_lli : (Instr.frameLli 32#16 0#16 0#16).wellFormed = false := by decide
theorem test_wf_frame_rli : (Instr.frameRli 0#16 2#16 0#16).wellFormed = false := by decide
theorem test_wf_frame_lhp : (Instr.frameLhp 128#16 0#16 0#16).wellFormed = false := by decide
theorem test_wf_frame_rhp : (Instr.frameRhp 0#16 0#16 2#16).wellFormed = false := by decide
theorem test_wf_frame_aapc : (Instr.frameAapc 0#16 0#16 0#16 0#16 0#16 0#16 4#16).wellFormed = false := by decide
theorem test_wf_frame_dapc : (Instr.frameDapc 0#16 4#16 0#16 0#16).wellFormed = false := by decide
theorem test_wf_frame_pdc : (Instr.framePdc 0#16 0#16 0#16 0#16 0#16 0#16 0#16 2#16).wellFormed = false := by decide
theorem test_wf_frame_daif : (Instr.frameDaif 4#16 0#16 0#16 0#16 0#16 0#16).wellFormed = false := by decide
theorem test_wf_frame_sc : (Instr.frameSc 0#16 0#16 16#16 0#16 0#16).wellFormed = false := by decide
theorem test_wf_frame_ac : (Instr.frameAc 2#16).wellFormed = false := by decide
theorem test_wf_frame_rst : (Instr.frameRst 512#16).wellFormed = false := by decide
theorem test_wf_accepts : (Instr.frameRst 511#16).wellFormed = true ∧ (Instr.frameLli 31#16 1#16 1#16).wellFormed = true := by decide

/-! ## Decoding: every constructor from a word written out from R59 to R61, R67, R68 -/

theorem test_decode_commands :
    [read (.command 0b0001_000000000000_0000000000000000#32), read (.command 0b0010_000000000000_0000000000000000#32),
      read (.command 0b0011_000000000000_1111111010100111#32), read (.command 0b0100_000000000000_1111111011010100#32),
      read (.command 0b0101_000000000000_0000000000000000#32)] =
    [.inl .initializeCodec, .inl .reset, .inl (.setLineInVolume (BitVec.ofInt 16 (-345))),
      .inl (.setHeadphoneVolume (BitVec.ofInt 16 (-300))), .inl .headphoneMute] := by decide

/-- V71, V73 to V77. -/
theorem test_decode_illegal_commands :
    [read (.command 0x10000001#32), read (.command 0x30010000#32), read (.command 0x5000FB46#32), read (.command 0x00000000#32),
      read (.command 0x60000000#32), read (.command 0x70000000#32), read (.command 0xC0000000#32), read (.command 0xF0000000#32),
      read (.command 0x80000006#32), read (.command 0x90000006#32), read (.command 0xA0000006#32), read (.command 0xB00F0000#32)] =
    [.inr .mustBeZero, .inr .mustBeZero, .inr .mustBeZero, .inr .reservedOpcode,
      .inr .reservedOpcode, .inr .reservedOpcode, .inr .reservedOpcode, .inr .reservedOpcode,
      .inr .internalOperation, .inr .internalOperation, .inr .internalOperation, .inr .internalOperation] := by decide

theorem test_decode_plumbing :
    [read (.microOp 0b1000_0000000000000000_00000000_1001#32 []), read (.microOp 0b1010_0000000000000000_00000000_0110#32 []),
      read (.microOp 0b1011_0000_00001111_0000000000000000#32 []), read (.microOp 0b1011_0000_00000000_0000000100010111#32 [])] =
    [.inl (.get .ac), .inl (.writeReg .pdc), .inl (.writeRaw 0x0F#8 0x0000#16), .inl (.writeRaw 0x00#8 0x0117#16)] := by decide

theorem test_decode_set_structured :
    [read (.microOp 0b1001_0000000000000000_00000000_0000#32 [23, 0, 1]),
      read (.microOp 0b1001_0000000000000000_00000000_0001#32 [31, 1, 0]),
      read (.microOp 0b1001_0000000000000000_00000000_0010#32 [121, 1, 0]),
      read (.microOp 0b1001_0000000000000000_00000000_0011#32 [0, 0, 1]),
      read (.microOp 0b1001_0000000000000000_00000000_0100#32 [1, 0, 1, 0, 1, 0, 2]),
      read (.microOp 0b1001_0000000000000000_00000000_0101#32 [1, 2, 0, 1]),
      read (.microOp 0b1001_0000000000000000_00000000_0110#32 [1, 0, 1, 0, 1, 0, 1, 0]),
      read (.microOp 0b1001_0000000000000000_00000000_0111#32 [1, 3, 0, 1, 1, 0]),
      read (.microOp 0b1001_0000000000000000_00000000_1000#32 [0, 1, 9, 1, 0]),
      read (.microOp 0b1001_0000000000000000_00000000_1001#32 [1])] =
    [.inl (.setStructuredLli 23 0 1), .inl (.setStructuredRli 31 1 0), .inl (.setStructuredLhp 121 1 0),
      .inl (.setStructuredRhp 0 0 1), .inl (.setStructuredAapc 1 0 1 0 1 0 2), .inl (.setStructuredDapc 1 2 0 1),
      .inl (.setStructuredPdc 1 0 1 0 1 0 1 0), .inl (.setStructuredDaif 1 3 0 1 1 0), .inl (.setStructuredSc 0 1 9 1 0),
      .inl (.setStructuredAc 1)] := by decide

/-- V78, R66, R68. -/
theorem test_decode_illegal_micro_ops :
    [read (.microOp 0x8000000A#32 []), read (.microOp 0x9000000F#32 []), read (.microOp 0xA0000010#32 []),
      read (.microOp 0xB10F0000#32 []), read (.microOp 0xC0000000#32 []), read (.microOp 0x10000000#32 []),
      read (.microOp 0x90000009#32 [])] =
    [.inr .noSuchRegister, .inr .noSuchRegister, .inr .mustBeZero,
      .inr .mustBeZero, .inr .reservedOpcode, .inr .notMicroOperation, .inr .operandCount] := by decide

theorem test_decode_frames :
    [read (.busFrame 0b00000000_0000000_1_0_00_10111#24), read (.busFrame 0b00000001_0000000_0_1_00_00101#24),
      read (.busFrame 0b00000010_0000000_1_1_0000001#24), read (.busFrame 0b00000011_0000000_0_0_1111001#24),
      read (.busFrame 0b00000100_00000000_10_1_0_0_0_1_0#24), read (.busFrame 0b00000101_00000000000_1_0_10_1#24),
      read (.busFrame 0b00000110_00000000_1_0_0_1_1_1_1_1#24), read (.busFrame 0b00000111_00000000_0_1_1_0_11_01#24),
      read (.busFrame 0b00001000_00000000_0_1_1001_1_0#24), read (.busFrame 0b00001001_000000000000000_1#24),
      read (.busFrame 0b00001111_0000000_000000000#24)] =
    [.inl (.frameLli 23 0 1), .inl (.frameRli 5 1 0), .inl (.frameLhp 1 1 1), .inl (.frameRhp 121 0 0),
      .inl (.frameAapc 0 1 0 0 0 1 2), .inl (.frameDapc 1 2 0 1), .inl (.framePdc 1 1 1 1 1 0 0 1),
      .inl (.frameDaif 1 3 0 1 1 0), .inl (.frameSc 0 1 9 1 0), .inl (.frameAc 1), .inl (.frameRst 0)] := by decide

/-- R61, R70: an address with no frame shape, and a reserved bit that is 1. -/
theorem test_decode_illegal_frames :
    [read (.busFrame 0x0A0000#24), read (.busFrame 0x100000#24), read (.busFrame 0x000020#24), read (.busFrame 0x090002#24)] =
    [.inr .noSuchFrame, .inr .noSuchFrame, .inr .reservedBits, .inr .reservedBits] := by decide

/-- The words as the opcode table numbers them; the operands of SET_STRUCTURED above bit 31 (log 7). -/
theorem test_decode_table_words :
    [decodeTableWord 32 0x3000FEA7, decodeTableWord 32 0x90000005, decodeTableWord 80 0x00010000001790000000,
      decodeTableWord 24 0x0F0000, decodeTableWord 32 0x8000000A] =
    [some (.setLineInVolume (BitVec.ofInt 16 (-345))), some (.setStructuredDapc 0 0 0 0), some (.setStructuredLli 23 0 1),
      some (.frameRst 0), none] := by decide

/-! ## The register codec -/

/-- S1: the default image packed from its field literals. -/
theorem test_default_image_packs :
    [pack .lli [23, 1, 0], pack .rli [23, 1, 0], pack .lhp [121, 0, 0], pack .rhp [121, 0, 0], pack .aapc [0, 1, 0, 1, 0, 0, 0],
      pack .dapc [0, 0, 1, 0], pack .pdc [1, 1, 1, 1, 1, 0, 0, 1], pack .daif [2, 2, 0, 0, 0, 0], pack .sc [0, 0, 0, 0, 0],
      pack .ac [0]] = allRegs.map defaultImage.get := by decide

/-- R102: the INITIALIZE words from their field values. -/
theorem test_initialize_words_pack :
    [pack .pdc [0, 0, 0, 0, 0, 0, 0, 0], pack .daif [2, 2, 0, 0, 0, 0], pack .dapc [0, 0, 0, 0], pack .aapc [1, 0, 1, 0, 1, 0, 0],
      pack .ac [1]] = [initPdc, initDaif, initDapc, initAapc, initAc] := by decide

/-- V1b, V2a, V3c, V4b, V6b, V7c: all fields maximal. -/
theorem test_pack_maximal :
    [pack .lli [31, 1, 1], pack .lhp [127, 1, 1], pack .aapc [1, 1, 1, 1, 1, 1, 3], pack .dapc [1, 3, 1, 1],
      pack .daif [3, 3, 1, 1, 1, 1], pack .sc [1, 1, 15, 1, 1], packFields resetLayout [511]] =
    [0x019F, 0x01FF, 0x00FF, 0x001F, 0x00FF, 0x00FF, 0x01FF] := by decide

/-- V9, V10: reserved bits are dropped. -/
theorem test_unpack :
    unpack .lli 0xFFFF = [31, 1, 1] ∧ unpack .daif 0x00A5 = [1, 1, 0, 1, 0, 1] ∧ unpack .sc 0x00E6 = [0, 1, 9, 1, 1] ∧
      unpack .lhp 0x01F9 = [121, 1, 1] ∧ unpack .aapc 0x0015 = [1, 0, 1, 0, 1, 0, 0] := by decide

/-! ## Instructions, one step each -/

/-- P1. -/
theorem test_initialize :
    got (fun t => (words t, frames t)) (exec .initializeCodec (start [.ok, .ok, .ok, .ok, .ok, .ok, .ok, .ok])) =
      some ([0x0117, 0x0097, 0x0180, 0x0079, 0x0015, 0x0000, 0x0000, 0x000A, 0x0000, 0x0001],
        [(0x0F, 0x0000, .ok), (0x06, 0x0000, .ok), (0x07, 0x000A, .ok), (0x05, 0x0000, .ok), (0x04, 0x0015, .ok),
          (0x09, 0x0001, .ok), (0x00, 0x0117, .ok), (0x02, 0x0180, .ok)]) := by decide

/-- P2, V43. -/
theorem test_initialize_abort :
    got (fun t => (words t, frames t, t.statuses)) (exec .initializeCodec (start [.ok, .ok, .ok, .busError])) =
      some ([0x0097, 0x0097, 0x0079, 0x0079, 0x000A, 0x0000, 0x0000, 0x000A, 0x0000, 0x0000],
        [(0x0F, 0x0000, .ok), (0x06, 0x0000, .ok), (0x07, 0x000A, .ok), (0x05, 0x0000, .busError)], [.busError]) := by decide

/-- S9, R109. -/
theorem test_reset :
    got (fun t => (frames t, t.statuses)) (exec .reset (start [.ok])) = some ([(0x0F, 0x0000, .ok)], [.ok]) := by decide

theorem test_reset_bus_error :
    got (fun t => (t.bank, t.statuses)) (exec .reset (start [.busError])) = some (defaultImage, [.busError]) := by decide

/-- V20, V23, V25, V28, V29, V29e, V29f, V29i. -/
theorem test_line_in_codes :
    [-32768, -344, -330, -1, 0, 119, 120, 32767].map (fun g => lineInCode (BitVec.ofInt 16 g)) = [0, 0, 1, 22, 23, 30, 31, 31] := by
  decide

/-- P3 line 3. -/
theorem test_set_line_in_volume :
    got (fun t => (t.bank.lli, frames t)) (exec (.setLineInVolume 200) (start [.ok])) =
      some (0x011F, [(0x00, 0x011F, .ok)]) := by decide

/-- V50, V53, V55, V57, V59, V60, V64, V65, V67. -/
theorem test_headphone_codes :
    [-32768, -1209, -1200, -300, -5, 0, 59, 60, 32767].map (fun g => headphoneCode (BitVec.ofInt 16 g)) =
      [0, 0, 1, 91, 120, 121, 126, 127, 127] := by decide

/-- P4 line 1. -/
theorem test_set_headphone_volume :
    got (fun t => (t.bank.lhp, frames t, t.statuses)) (exec (.setHeadphoneVolume 0) (start [.busError])) =
      some (0x01F9, [(0x02, 0x01F9, .busError)], [.busError]) := by decide

/-- V68. -/
theorem test_headphone_mute :
    got (fun t => (t.bank.lhp, frames t)) (exec .headphoneMute (start [.ok])) = some (0x0180, [(0x02, 0x0180, .ok)]) := by decide

/-- P5 line 1. -/
theorem test_get : got State.results (exec (.get .daif) State.reset) = some [.word 0x000A] := by decide

theorem test_get_silent : got (fun t => (t.bank, t.trace)) (exec (.get .lli) State.reset) = some (defaultImage, []) := by decide

/-- V1a, V11. -/
theorem test_set_structured_lli :
    got (fun t => (t.bank.lli, t.results)) (exec (.setStructuredLli 5 1 0) State.reset) = some (0x0085, [.word 0x0085]) := by decide
theorem test_set_structured_lli_refused :
    got (fun t => (t.bank, t.results)) (exec (.setStructuredLli 32 0 0) State.reset) =
      some (defaultImage, [.status .invalidFieldValue]) := by decide

/-- V1b, V12. -/
theorem test_set_structured_rli : got (fun t => t.bank.rli) (exec (.setStructuredRli 31 1 1) State.reset) = some 0x019F := by decide
theorem test_set_structured_rli_refused :
    got State.results (exec (.setStructuredRli 0 2 0) State.reset) = some [.status .invalidFieldValue] := by decide

/-- V2b, V13. -/
theorem test_set_structured_lhp : got (fun t => t.bank.lhp) (exec (.setStructuredLhp 121 1 1) State.reset) = some 0x01F9 := by decide
theorem test_set_structured_lhp_refused :
    got State.results (exec (.setStructuredLhp 128 0 0) State.reset) = some [.status .invalidFieldValue] := by decide

/-- R79. -/
theorem test_set_structured_rhp : got (fun t => t.bank.rhp) (exec (.setStructuredRhp 0 1 1) State.reset) = some 0x0180 := by decide
theorem test_set_structured_rhp_refused :
    got State.results (exec (.setStructuredRhp 0 2 0) State.reset) = some [.status .invalidFieldValue] := by decide

/-- V3b, V14. -/
theorem test_set_structured_aapc :
    got (fun t => t.bank.aapc) (exec (.setStructuredAapc 0 0 0 0 0 1 2) State.reset) = some 0x00A0 := by decide
theorem test_set_structured_aapc_refused :
    got State.results (exec (.setStructuredAapc 0 0 0 0 0 0 4) State.reset) = some [.status .invalidFieldValue] := by decide

/-- V4a, V15. -/
theorem test_set_structured_dapc : got (fun t => t.bank.dapc) (exec (.setStructuredDapc 1 2 0 1) State.reset) = some 0x0015 := by decide
theorem test_set_structured_dapc_refused :
    got State.results (exec (.setStructuredDapc 0 4 0 0) State.reset) = some [.status .invalidFieldValue] := by decide

/-- V5a, V19. -/
theorem test_set_structured_pdc :
    got (fun t => t.bank.pdc) (exec (.setStructuredPdc 1 0 1 0 1 0 1 0) State.reset) = some 0x0055 := by decide
theorem test_set_structured_pdc_refused :
    got State.results (exec (.setStructuredPdc 0 0 0 0 0 0 0 65535) State.reset) = some [.status .invalidFieldValue] := by decide

/-- P5 line 2, V16. -/
theorem test_set_structured_daif :
    got (fun t => (words t, t.results)) (exec (.setStructuredDaif 1 3 0 1 1 0) State.reset) =
      some ([0x0097, 0x0097, 0x0079, 0x0079, 0x000A, 0x0008, 0x009F, 0x006D, 0x0000, 0x0000], [.word 0x006D]) := by decide
theorem test_set_structured_daif_refused :
    got State.results (exec (.setStructuredDaif 4 0 0 0 0 0) State.reset) = some [.status .invalidFieldValue] := by decide

/-- V7a, V17. -/
theorem test_set_structured_sc : got (fun t => t.bank.sc) (exec (.setStructuredSc 0 1 9 1 0) State.reset) = some 0x0066 := by decide
theorem test_set_structured_sc_refused :
    got State.results (exec (.setStructuredSc 0 0 16 0 0) State.reset) = some [.status .invalidFieldValue] := by decide

/-- V8, V18. -/
theorem test_set_structured_ac : got (fun t => t.bank.ac) (exec (.setStructuredAc 1) State.reset) = some 0x0001 := by decide
theorem test_set_structured_ac_refused :
    got State.results (exec (.setStructuredAc 2) State.reset) = some [.status .invalidFieldValue] := by decide

/-- V30, V31. -/
theorem test_write_reg :
    got (fun t => (frames t, t.results)) (exec (.writeReg .pdc) (start [.ok])) = some ([(0x06, 0x009F, .ok)], [.status .ok]) := by decide
theorem test_write_reg_bus_error :
    got (fun t => (frames t, t.results)) (exec (.writeReg .ac) (start [.busError])) =
      some ([(0x09, 0x0000, .busError)], [.status .busError]) := by decide

/-- V32. -/
theorem test_write_raw :
    got (fun t => (frames t, t.bank)) (exec (.writeRaw 0x0F 0x0000) (start [.ok])) =
      some ([(0x0F, 0x0000, .ok)], defaultImage) := by decide

/-- V33. -/
theorem test_store_bus_error :
    ((store .ac [1] (start [.busError])).2, (store .ac [1] (start [.busError])).1.bank.ac,
      frames (store .ac [1] (start [.busError])).1) = (Status.busError, 0x0001, [(0x09, 0x0001, .busError)]) := by decide

/-- R61: each frame's address and value. -/
theorem test_frame_lli : got frames (exec (.frameLli 23 0 1) (start [.ok])) = some [(0x00, 0x0117, .ok)] := by decide
theorem test_frame_rli : got frames (exec (.frameRli 5 1 0) (start [.ok])) = some [(0x01, 0x0085, .ok)] := by decide
theorem test_frame_lhp : got frames (exec (.frameLhp 121 1 1) (start [.busError])) = some [(0x02, 0x01F9, .busError)] := by decide
theorem test_frame_rhp : got frames (exec (.frameRhp 121 0 0) (start [.ok])) = some [(0x03, 0x0079, .ok)] := by decide
theorem test_frame_aapc : got frames (exec (.frameAapc 1 0 1 0 1 0 0) (start [.ok])) = some [(0x04, 0x0015, .ok)] := by decide
theorem test_frame_dapc : got frames (exec (.frameDapc 1 2 0 1) (start [.ok])) = some [(0x05, 0x0015, .ok)] := by decide
theorem test_frame_pdc : got frames (exec (.framePdc 1 1 1 1 1 0 0 1) (start [.ok])) = some [(0x06, 0x009F, .ok)] := by decide
theorem test_frame_daif : got frames (exec (.frameDaif 1 3 0 1 1 0) (start [.ok])) = some [(0x07, 0x006D, .ok)] := by decide
theorem test_frame_sc : got frames (exec (.frameSc 0 1 9 1 0) (start [.ok])) = some [(0x08, 0x0066, .ok)] := by decide
theorem test_frame_ac : got frames (exec (.frameAc 1) (start [.ok])) = some [(0x09, 0x0001, .ok)] := by decide
theorem test_frame_rst : got frames (exec (.frameRst 0) (start [.ok])) = some [(0x0F, 0x0000, .ok)] := by decide

/-! ## The device behind the bus -/

/-- R53, R55: the left line-in word, and the volume at the paired channel, which every reading of BOTH_COPY copies. -/
theorem test_device_takes_word :
    got (fun t => t.device.regs.lli) (exec (.writeRaw 0x00 0x0105) (start [.ok])) = some 0x105 := by decide

/-- R54. -/
theorem test_device_reset :
    got (fun t => t.device) (exec (.writeRaw 0x0F 0x1234) { start [.ok] with device :=
      { regs := RegFile.ofFn (fun _ => 0x1FF), effect := RegFile.ofFn (fun _ => 0x1FF) } }) = some Device.powerOn := by decide

/-! ## The step -/

/-- V70 and the sequencer's first steps: an accepted command performs step 1 and goes on to step 2 (R96). -/
theorem test_step_run :
    got (fun t => (t.seq, frames t)) (step (accept .initializeCodec (start [.ok]))) =
      some (.run .initializeCodec 2, [(0x0F, 0x0000, .ok)]) := by decide

theorem test_step_run_abort :
    got (fun t => (t.seq, t.statuses)) (step { start [.busError] with seq := .run .initializeCodec 5 }) =
      some (.idle, [.busError]) := by decide

/-- R33: there is no step 9. -/
theorem test_step_outside_program :
    (match step { State.reset with seq := .run .initializeCodec 9 } with | .fault f => some f | _ => none) = some .noSuchStep := by decide

/-- V71: IllegalCommand, nothing else. -/
theorem test_step_illegal_command :
    got (fun t => (t.statuses, t.seq, t.trace, t.bank)) (step (present [.command 0x10000001])) =
      some ([.illegalCommand], .idle, [], defaultImage) := by decide

/-- V78. -/
theorem test_step_refuses_index :
    why (step (placing (.microOp 0x8000000A []))) = some (.undecodable .noSuchRegister) := by decide

theorem test_step_hardware_reset :
    got (fun t => (t.bank, t.trace, t.seq))
      (step { present [.hardwareReset] with bank := RegFile.ofFn (fun _ => 0x0001), statuses := [.busError] }) =
      some (defaultImage, [], .idle) := by decide

/-- R93: the caller's port takes no micro-operation; its word there is IllegalCommand and no frame goes out (V77). -/
theorem test_step_no_frame_without_command :
    got (fun t => (t.statuses, t.trace)) (step (present [.command 0xB00F0000])) = some ([.illegalCommand], []) := by decide

theorem test_fetch_word :
    got State.results (step (State.reset.withFetchWord 80 0x00010000001790000000)) = some [.word 0x0117] := by decide

/-! ## Witnesses -/

/-- Eight accepted writes. -/
def okRun : State := start [.ok, .ok, .ok, .ok, .ok, .ok, .ok, .ok]

/-- A machine found in Run. -/
def running (c : Command) (k : Nat) (as : List Answer) : State := { start as with seq := .run c k }

theorem reservedZero_reset : State.reset.bank.ReservedZero := by
  intro r
  cases r <;> decide

theorem witness_hardware_reset :
    (present [.hardwareReset]).seq = .idle ∧ (present [.hardwareReset]).placed = none ∧
      (present [.hardwareReset]).inbox = .hardwareReset :: [] := by decide

theorem witness_unpack_inverts_pack :
    fieldsFit (layout .lli) [31#16, 1#16, 1#16] = true ∧ fieldsFit (layout .sc) [0#16, 0#16, 15#16, 0#16, 1#16] = true := by decide

theorem witness_get : State.reset.bank.ReservedZero ∧ State.reset.bank.get .lli = 0x0097#16 := ⟨reservedZero_reset, by decide⟩

theorem witness_set_structured_line_in :
    (31#16 ≤ 31#16 ∧ 1#16 ≤ 1#16 ∧ 0#16 ≤ 1#16) ∧ (31#16 < 32#16 ∨ 1#16 < 0#16 ∨ 1#16 < 0#16) ∧
      (31#16 < 0#16 ∨ 1#16 < 2#16 ∨ 1#16 < 0#16) ∧ (31#16 < 0#16 ∨ 1#16 < 0#16 ∨ 1#16 < 2#16) := by decide

theorem witness_set_structured_headphone :
    (127#16 ≤ 127#16 ∧ 1#16 ≤ 1#16 ∧ 1#16 ≤ 1#16) ∧ (127#16 < 128#16 ∨ 1#16 < 0#16 ∨ 1#16 < 0#16) ∧
      (127#16 < 0#16 ∨ 1#16 < 2#16 ∨ 1#16 < 0#16) ∧ (127#16 < 0#16 ∨ 1#16 < 0#16 ∨ 1#16 < 2#16) := by decide

/-- AnalogAudioPathControl: one-bit operands at 1 and 2, sidetone-att at 3 and 4. -/
theorem witness_set_structured_analog_path : 1#16 ≤ 1#16 ∧ 3#16 ≤ 3#16 ∧ 1#16 < 2#16 ∧ 3#16 < 4#16 := by decide

/-- DigitalAudioPathControl: one-bit operands at 1 and 2, de-emphasis at 3 and 4. -/
theorem witness_set_structured_digital_path : 1#16 ≤ 1#16 ∧ 3#16 ≤ 3#16 ∧ 1#16 < 2#16 ∧ 3#16 < 4#16 := by decide

/-- PowerDownControl: operands at 1 and 2. -/
theorem witness_set_structured_power_down : 0#16 ≤ 1#16 ∧ 1#16 ≤ 1#16 ∧ 1#16 < 2#16 ∧ 1#16 < 65535#16 := by decide

/-- DigitalAudioInterfaceFormat: one-bit operands at 1 and 2, format and word-length at 3 and 4. -/
theorem witness_set_structured_interface_format : 1#16 ≤ 1#16 ∧ 3#16 ≤ 3#16 ∧ 1#16 < 2#16 ∧ 3#16 < 4#16 := by decide

/-- SamplingControl: one-bit operands at 1 and 2, sample-rate at 15 and 16. -/
theorem witness_set_structured_sampling : 1#16 ≤ 1#16 ∧ 15#16 ≤ 15#16 ∧ 1#16 < 2#16 ∧ 15#16 < 16#16 := by decide

theorem witness_set_structured_active : 1#16 ≤ 1#16 ∧ 1#16 < 2#16 := by decide

theorem witness_invalid_field_value :
    structuredInstr .lli [32#16, 0#16, 0#16] = some (.setStructuredLli 32#16 0#16 0#16) ∧
      fieldsFit (layout .lli) [32#16, 0#16, 0#16] = false := by decide

theorem witness_set_structured_then_get :
    structuredInstr .daif [1#16, 3#16, 0#16, 1#16, 1#16, 0#16] = some (.setStructuredDaif 1#16 3#16 0#16 1#16 1#16 0#16) ∧
      fieldsFit (layout .daif) [1#16, 3#16, 0#16, 1#16, 1#16, 0#16] = true ∧ RegId.lli ≠ RegId.daif := by decide

theorem witness_store :
    fieldsFit (layout .ac) [1#16] = true ∧ (start [.busError]).answerAt 0 = .busError ∧ (start [.ok]).answerAt 0 = .ok := by decide

theorem witness_frame_is_one_bus_write :
    (encode (.frameLli 31#16 1#16 1#16) = .busFrame 0x00019F#24 ∧ (Instr.frameLli 31#16 1#16 1#16).wellFormed = true) ∧
      (encode (.frameRst 511#16) = .busFrame 0x0F01FF#24 ∧ (Instr.frameRst 511#16).wellFormed = true) := by decide

/-- Every clause's operands at their greatest values. -/
theorem witness_frame_words :
    (31#16 ≤ 31#16 ∧ 1#16 ≤ 1#16) ∧ 127#16 ≤ 127#16 ∧ 3#16 ≤ 3#16 ∧ 15#16 ≤ 15#16 ∧ 511#16 ≤ 511#16 := by decide

theorem witness_device_takes_write :
    (start [.ok]).answerAt 0 = .ok ∧ RegId.rhp ≠ RegId.lli ∧ (0x0117#16 : Word).getLsbD 8 = true ∧
      pairedReg .lli ≠ some .rhp ∧ (0x0017#16 : Word).getLsbD 8 = false ∧ RegId.rli ≠ RegId.lli := by decide

theorem witness_reset_trigger : (start [.ok]).answerAt 0 = .ok ∧ (start [.ok]).seq = .idle := by decide

theorem witness_failed_write :
    (start [.busError]).answerAt 0 = .busError ∧ (RegId.sc ≠ RegId.lli ∧ (0x0017#16 : Word).getLsbD 8 = false ∧
      pairedReg .lli ≠ some .sc) ∧ (0x0117#16 : Word).getLsbD 8 = true ∧ pairedReg .lli = some .rli := by decide

theorem witness_linked_channel : (start [.ok]).answerAt 0 = .ok ∧ (0x0100#16 : Word).getLsbD 8 = true := by decide

/-- An active device. -/
def activeDevice : State := { start [.ok] with device := { Device.powerOn with regs := Device.powerOn.regs.set .ac 1#9 } }

theorem witness_undeferred_write :
    activeDevice.answerAt 0 = .ok ∧ (activeDevice.device.regs.get .ac).getLsbD 0 = true ∧ RegId.daif ≠ RegId.lhp ∧
      RegId.daif ≠ RegId.rhp := by decide

/-- One state for each outcome. -/
theorem witness_block_never_reads_device :
    step State.reset = .next State.reset.idleTick ∧ step (running .initializeCodec 9 []) = .fault .noSuchStep ∧
      step (placing (.microOp 0x8000000A#32 [])) = .refused (.undecodable .noSuchRegister) := ⟨rfl, rfl, rfl⟩

theorem witness_illegal_command :
    (present [.command 0x80000006#32]).seq = .idle ∧ (present [.command 0x80000006#32]).placed = none ∧
      (present [.command 0x80000006#32]).inbox = .command 0x80000006#32 :: [] ∧
      legalCommandWord 0x80000006#32 = false := by decide

theorem witness_step_runs_decoded :
    ((present [.command 0x20000000#32]).seq = .idle ∧ (present [.command 0x20000000#32]).placed = none ∧
      (present [.command 0x20000000#32]).inbox = .command 0x20000000#32 :: [] ∧ read (.command 0x20000000#32) = .inl .reset) ∧
    ((placing (.microOp 0x80000009#32 [])).seq = .idle ∧
      (placing (.microOp 0x80000009#32 [])).placed = some (.microOp 0x80000009#32 []) ∧
      read (.microOp 0x80000009#32 []) = .inl (.get .ac)) ∧
    decodeTableWord 24 0x090001 = some (.frameAc 1#16) ∧
    (State.reset.seq = .idle ∧ State.reset.placed = none ∧ State.reset.inbox = []) := by decide

theorem witness_running :
    (running .reset 1 [.ok]).seq = .run .reset 1 ∧ (1 ≤ 1 ∧ 1 ≤ (program .reset).length) := by decide

theorem witness_sequencer_step :
    ((running .initializeCodec 8 [.ok]).seq = .run .initializeCodec (7 + 1) ∧
      (program .initializeCodec)[7]? = some (.store .lhp [0#16, 1#16, 1#16]) ∧
      (running .initializeCodec 8 [.ok]).answerAt 0 = .ok ∧ 7 + 1 = (program .initializeCodec).length) ∧
    ((program .initializeCodec)[0]? = some .resetTrigger ∧ (running .initializeCodec 1 [.ok]).answerAt 0 = .ok ∧
      0 + 1 < (program .initializeCodec).length) ∧
    (running .initializeCodec 1 [.busError]).answerAt 0 = .busError := by decide

theorem witness_command_completes : okRun.seq = .idle ∧ ∀ k, k < (program .initializeCodec).length → okRun.answerAt k = .ok := by decide

theorem witness_command_aborts :
    let s := start [.ok, .ok, .ok, .ok, .ok, .ok, .ok, .busError]
    s.seq = .idle ∧ 7 < (program .initializeCodec).length ∧ (∀ k, k < 7 → s.answerAt k = .ok) ∧ s.answerAt 7 = .busError ∧
      (start [.busError]).answerAt 0 = .busError := by decide

/-- For the statements whose only hypothesis is Idle: CommandAgreesWithRun, CommandRunsStepByStep, ResetCommandSendsTrigger,
HeadphoneMuteIsMinimumVolume, CommandsReturnOnlyOkOrBusError, CommandsWriteOnlyTheirAddresses, InitializeOrderIsFixed. -/
theorem witness_idle : State.reset.seq = .idle := by decide

theorem witness_initialize_succeeds : okRun.seq = .idle ∧ ∀ k, k < 8 → okRun.answerAt k = .ok := by decide

/-- A run in which ActiveControl is written. -/
theorem witness_initialize_order :
    okRun.seq = .idle ∧ (got frames (exec .initializeCodec okRun)).any (fun fs => fs.any (fun e => e.1 == 0x09#8)) = true := by decide

theorem witness_line_in_clauses :
    (BitVec.ofInt 16 (-345)).toInt ≤ -345 ∧ (120 : Int) ≤ (BitVec.ofInt 16 120).toInt ∧ State.reset.seq = .idle := by decide

theorem witness_headphone_clauses :
    (BitVec.ofInt 16 (-1210)).toInt ≤ -1210 ∧ (60 : Int) ≤ (BitVec.ofInt 16 60).toInt ∧ State.reset.seq = .idle := by decide

theorem witness_quantiser :
    ((-345 : Int) ≤ 120 ∧ (-346 : Int) < -345 ∧ (120 : Int) < 121 ∧ (-345 : Int) ≤ 0) ∧ 0 < 15 ∧
      (31 ≤ 31 ∧ 0 < 15 ∧ 15 * 31 + 0 ≤ 15 * 31) ∧ (0 ≤ 31 ∧ 14 < 15 ∧ 15 * 0 + 14 ≤ 15 * 31) := by decide

theorem witness_initialize_synchronises : okRun.seq = .idle ∧ okRun.UnstoredDefault ∧ ∀ k, k < 8 → okRun.answerAt k = .ok :=
  ⟨rfl, ⟨by decide, by decide, by decide⟩, by decide⟩

theorem witness_step_keeps_invariant : State.reset.Inv ∧ step State.reset = .next State.reset.idleTick :=
  ⟨⟨reservedZero_reset, trivial⟩, rfl⟩

theorem witness_command_step :
    (present [.command 0x20000000#32]).AnyIdle ∧ (present [.command 0x20000000#32]).UnstoredDefault ∧
      (present [.command 0x20000000#32]).placed = none ∧
      (present [.command 0x20000000#32]).inbox = .command 0x20000000#32 :: [] :=
  ⟨⟨rfl, reservedZero_reset⟩, ⟨by decide, by decide, by decide⟩, rfl, rfl⟩

theorem witness_command_port : (present [.command 0x00000000#32]).seq.InProgram ∧ (present [.command 0x00000000#32]).placed = none :=
  ⟨trivial, rfl⟩

/-- A step that sends a frame. -/
theorem witness_block_sends_only_under_command :
    (running .reset 1 [.ok]).placed = none ∧ got frames (step (running .reset 1 [.ok])) = some [(0x0F, 0x0000, .ok)] := by decide

/-- The idle clause; the write clause has no hypothesis. -/
theorem witness_effect : State.reset.seq = .idle ∧ State.reset.placed = none ∧ State.reset.inbox = [] := by decide

theorem witness_trace_grows :
    step State.reset = .next State.reset.idleTick ∧
      (State.reset.seq = .idle → State.reset.placed = none → State.reset.inbox.head? ≠ some .hardwareReset) :=
  ⟨rfl, by decide⟩

theorem witness_decode_inverts_encode : (Instr.frameSc 1#16 1#16 15#16 1#16 1#16).wellFormed = true := by decide

theorem witness_encode_inverts_decode : decode (.busFrame 0x090001#24) = .ok (.frameAc 1#16) := rfl

end Sys2Proof.Tests
end

/-! PROOFS. Noninterference (00_scope.md R5): the device behind the bus is written and never read by the block. Two states whose blocks
agree are related by `State.SameBlock`; every operation keeps the relation, and so every step has the same outcome. -/

namespace Sys2Proof.Machine

/-- The two states agree in all but the device. -/
def State.SameBlock (s t : State) : Prop := ∃ d : Device, t = { s with device := d }

/-- The same outcome, the devices of the next states apart. -/
inductive SameOutcome : Host.Outcome State Fault Refusal → Host.Outcome State Fault Refusal → Prop where
  | next {s t : State} (h : s.SameBlock t) : SameOutcome (.next s) (.next t)
  | fault (f : Fault) : SameOutcome (.fault f) (.fault f)
  | refused (r : Refusal) : SameOutcome (.refused r) (.refused r)

namespace SameOutcome

variable {o : Host.Outcome State Fault Refusal}

theorem exists_of_next {t : State} (h : SameOutcome (.next t) o) : ∃ e : Device, o = .next { t with device := e } := by
  cases h with
  | next hst => exact hst.imp fun _ he => congrArg _ he

theorem eq_of_fault {f : Fault} (h : SameOutcome (.fault f) o) : o = .fault f := by
  cases h
  rfl

theorem eq_of_refused {r : Refusal} (h : SameOutcome (.refused r) o) : o = .refused r := by
  cases h
  rfl

end SameOutcome

/-- GET as one equation (R75). -/
theorem exec_get (r : RegId) (s : State) : exec (.get r) s = .next (s.logResult (.word (s.bank.get r))) := rfl

/-- WRITE_REG as one equation (R90): the bank's word is sent, and the transport's answer is the result. -/
theorem exec_writeReg (r : RegId) (s : State) :
    exec (.writeReg r) s = .next ((s.busWrite (addr r) (s.bank.get r)).logResult (.status (statusOf (s.answerAt 0)))) := rfl

namespace State.SameBlock

variable {s t : State}

/-! ### What the block reads of the state -/

theorem bank_eq (h : s.SameBlock t) : t.bank = s.bank := by
  obtain ⟨d, rfl⟩ := h
  rfl

theorem seq_eq (h : s.SameBlock t) : t.seq = s.seq := by
  obtain ⟨d, rfl⟩ := h
  rfl

theorem placed_eq (h : s.SameBlock t) : t.placed = s.placed := by
  obtain ⟨d, rfl⟩ := h
  rfl

theorem inbox_eq (h : s.SameBlock t) : t.inbox = s.inbox := by
  obtain ⟨d, rfl⟩ := h
  rfl

theorem answerAt_eq (h : s.SameBlock t) (k : Nat) : t.answerAt k = s.answerAt k := by
  obtain ⟨d, rfl⟩ := h
  rfl

/-! ### The operations over the state -/

theorem writeBank (h : s.SameBlock t) (r : RegId) (w : Word) : (s.writeBank r w).SameBlock (t.writeBank r w) := by
  obtain ⟨d, rfl⟩ := h
  exact ⟨d, rfl⟩

theorem setSeq (h : s.SameBlock t) (q : Seq) : (s.setSeq q).SameBlock (t.setSeq q) := by
  obtain ⟨d, rfl⟩ := h
  exact ⟨d, rfl⟩

theorem logResult (h : s.SameBlock t) (m : MicroResult) : (s.logResult m).SameBlock (t.logResult m) := by
  obtain ⟨d, rfl⟩ := h
  exact ⟨d, rfl⟩

theorem endCommand (h : s.SameBlock t) (st : Status) : (s.endCommand st).SameBlock (t.endCommand st) := by
  obtain ⟨d, rfl⟩ := h
  exact ⟨d, rfl⟩

theorem setInbox (h : s.SameBlock t) (q : List Request) : (s.setInbox q).SameBlock (t.setInbox q) := by
  obtain ⟨d, rfl⟩ := h
  exact ⟨d, rfl⟩

theorem setPlaced (h : s.SameBlock t) (e : Option Encoded) : (s.setPlaced e).SameBlock (t.setPlaced e) := by
  obtain ⟨d, rfl⟩ := h
  exact ⟨d, rfl⟩

theorem powerOnReset (h : s.SameBlock t) : s.powerOnReset.SameBlock t.powerOnReset := by
  obtain ⟨d, rfl⟩ := h
  exact ⟨d, rfl⟩

/-- The device changes, by its own old contents; the block sees only the transport's answer (R42). -/
theorem busWrite (h : s.SameBlock t) (a : Byte) (v : Word) : (s.busWrite a v).SameBlock (t.busWrite a v) := by
  obtain ⟨d, rfl⟩ := h
  exact ⟨d.busWrite s.draws a v (s.answerAt 0), rfl⟩

theorem idleTick (h : s.SameBlock t) : s.idleTick.SameBlock t.idleTick := by
  obtain ⟨d, rfl⟩ := h
  exact ⟨d.settle s.draws, rfl⟩

/-! ### The sequencer -/

theorem performStep_status_eq (h : s.SameBlock t) (p : ProgStep) : (performStep p t).2 = (performStep p s).2 := by
  cases p with
  | resetTrigger => exact congrArg statusOf (h.answerAt_eq 0)
  | store r fv =>
    cases hf : fieldsFit (layout r) fv
    · simp only [performStep, store_of_not_fits hf]
    · simp only [performStep, store_of_fits hf, h.answerAt_eq]

theorem performStep_state (h : s.SameBlock t) (p : ProgStep) : (performStep p s).1.SameBlock (performStep p t).1 := by
  cases p with
  | resetTrigger => exact h.busWrite _ _
  | store r fv =>
    cases hf : fieldsFit (layout r) fv
    · simpa only [performStep, store_of_not_fits hf] using h
    · simpa only [performStep, store_of_fits hf] using (h.writeBank _ _).busWrite _ _

theorem seqStep (h : s.SameBlock t) (c : Command) (k : Nat) (p : ProgStep) :
    (seqStep c k p s).SameBlock (seqStep c k p t) := by
  have hstatus := h.performStep_status_eq p
  have hstate := h.performStep_state p
  by_cases hok : (performStep p s).2 = .ok
  · by_cases hlast : k = (program c).length
    · rw [seqStep_of_ok_of_last hok hlast, seqStep_of_ok_of_last (hstatus.trans hok) hlast]
      exact hstate.endCommand _
    · rw [seqStep_of_ok_of_ne hok hlast, seqStep_of_ok_of_ne (hstatus.trans hok) hlast]
      exact hstate.setSeq _
  · rw [seqStep_of_ne_ok hok, seqStep_of_ne_ok (hstatus ▸ hok), hstatus]
    exact hstate.endCommand _

theorem runSteps (h : s.SameBlock t) (c : Command) (ps : List ProgStep) (k : Nat) :
    (runSteps c ps k s).SameBlock (runSteps c ps k t) := by
  induction ps generalizing k s t with
  | nil => exact h
  | cons p rest ih =>
    have hstep := h.seqStep c k p
    simp only [Machine.runSteps, hstep.seq_eq]
    split
    · exact hstep
    · exact ih hstep (k + 1)

theorem sameOutcome_runCommand (h : s.SameBlock t) (c : Command) : SameOutcome (runCommand c s) (runCommand c t) := by
  simp only [runCommand, h.seq_eq]
  split
  · exact .next ((h.setSeq _).runSteps c _ _)
  · exact .fault _

theorem sameOutcome_runningStep (h : s.SameBlock t) (c : Command) (k : Nat) :
    SameOutcome (runningStep c k s) (runningStep c k t) := by
  cases k with
  | zero => exact .fault _
  | succ j =>
    simp only [runningStep]
    split
    · exact .next (h.seqStep _ _ _)
    · exact .fault _

/-! ### Instructions, words and the step -/

theorem sameOutcome_runSetStructured (h : s.SameBlock t) (r : RegId) (fv : List FieldValue) :
    SameOutcome (runSetStructured r fv s) (runSetStructured r fv t) := by
  rw [runSetStructured_eq, runSetStructured_eq]
  split
  · exact .next ((h.writeBank _ _).logResult _)
  · exact .next (h.logResult _)

theorem sameOutcome_writeRaw (h : s.SameBlock t) (a : Byte) (w : Word) :
    SameOutcome (exec (.writeRaw a w) s) (exec (.writeRaw a w) t) := by
  rw [exec_writeRaw, exec_writeRaw, h.answerAt_eq]
  exact .next ((h.busWrite a w).logResult _)

theorem sameOutcome_writeReg (h : s.SameBlock t) (r : RegId) : SameOutcome (exec (.writeReg r) s) (exec (.writeReg r) t) := by
  rw [exec_writeReg, exec_writeReg, h.bank_eq, h.answerAt_eq]
  exact .next ((h.busWrite _ _).logResult _)

theorem sameOutcome_get (h : s.SameBlock t) (r : RegId) : SameOutcome (exec (.get r) s) (exec (.get r) t) := by
  rw [exec_get, exec_get, h.bank_eq]
  exact .next (h.logResult _)

theorem sameOutcome_exec (h : s.SameBlock t) (i : Instr) : SameOutcome (exec i s) (exec i t) := by
  cases i with
  | initializeCodec | reset | setLineInVolume | setHeadphoneVolume | headphoneMute => exact h.sameOutcome_runCommand _
  | get r => exact h.sameOutcome_get r
  | setStructuredLli | setStructuredRli | setStructuredLhp | setStructuredRhp | setStructuredAapc | setStructuredDapc
  | setStructuredPdc | setStructuredDaif | setStructuredSc | setStructuredAc => exact h.sameOutcome_runSetStructured _ _
  | writeReg r => exact h.sameOutcome_writeReg r
  | writeRaw a w => exact h.sameOutcome_writeRaw a w
  | frameLli | frameRli | frameLhp | frameRhp | frameAapc | frameDapc | framePdc | frameDaif | frameSc | frameAc | frameRst =>
    exact .next (h.busWrite _ _)

theorem sameOutcome_rejectWord (h : s.SameBlock t) (e : Encoded) (why : DecodeError) :
    SameOutcome (rejectWord e why s) (rejectWord e why t) := by
  cases e with
  | command w => exact .next (h.endCommand _)
  | microOp w fv => exact .refused _
  | busFrame f => exact .refused _

theorem sameOutcome_takeWord (h : s.SameBlock t) (e : Encoded) : SameOutcome (takeWord e s) (takeWord e t) := by
  simp only [takeWord]
  split
  · exact h.sameOutcome_exec _
  · exact h.sameOutcome_rejectWord _ _

theorem sameOutcome_step (h : s.SameBlock t) : SameOutcome (step s) (step t) := by
  simp only [step, h.seq_eq, h.placed_eq, h.inbox_eq]
  split
  · exact h.sameOutcome_runningStep _ _
  · split
    · exact (h.setPlaced _).sameOutcome_takeWord _
    · split
      · exact .next h.idleTick
      · exact .next (h.setInbox _).powerOnReset
      · exact (h.setInbox _).sameOutcome_takeWord _

end State.SameBlock

/-- Settles O27: the block's state and the answers decide every step, the relation `SameBlock` being kept by each operation. -/
theorem blockNeverReadsDevice : Obligations.BlockNeverReadsDevice := by
  intro s d
  have h : SameOutcome (step s) (step { s with device := d }) := State.SameBlock.sameOutcome_step ⟨d, rfl⟩
  exact ⟨fun _ ht => (ht ▸ h).exists_of_next, fun _ hf => (hf ▸ h).eq_of_fault, fun _ hr => (hr ▸ h).eq_of_refused⟩

end Sys2Proof.Machine

/-! PROOFS. The bank and its registers (10_state.md): the invariant every step keeps (R17, R33), the structured and the raw view of a
word (R16), the default image (R30) and the addresses (R14). -/

namespace Sys2Proof.Machine

/-! ### The reserved bits of the bank (R17) -/

/-- A packed word has no reserved bit, whether its values fit or not (R16; log 18). -/
theorem pack_and_not_mask (r : RegId) (fv : List FieldValue) : pack r fv &&& ~~~(mask r) = 0#16 := by
  apply BitVec.eq_of_getLsbD_eq
  intro i _
  cases hm : (mask r).getLsbD i
  · have hp : (pack r fv).getLsbD i = false := packFields_getLsbD_of_mask (layout r) fv i hm
    simp [hp]
  · simp [hm]

theorem defaultImage_reservedZero : defaultImage.ReservedZero := fun r => by cases r <;> decide

namespace RegFile.ReservedZero

variable {b : RegFile Word}

theorem set_pack (h : b.ReservedZero) (r : RegId) (fv : List FieldValue) : (b.set r (pack r fv)).ReservedZero := by
  intro q
  rw [RegFile.get_set]
  split
  · next hq => subst hq; exact pack_and_not_mask q fv
  · exact h q

theorem store {s : State} (h : s.bank.ReservedZero) (r : RegId) (fv : List FieldValue) :
    (store r fv s).1.bank.ReservedZero := by
  cases hf : fieldsFit (layout r) fv
  · rwa [store_of_not_fits hf]
  · rw [store_of_fits hf]
    exact h.set_pack r fv

theorem performStep {s : State} (h : s.bank.ReservedZero) (p : ProgStep) : (performStep p s).1.bank.ReservedZero := by
  cases p with
  | store r fv => exact h.store r fv
  | resetTrigger => exact h

end RegFile.ReservedZero

/-! ### The programs and the outcomes -/

theorem program_length_pos (c : Command) : 0 < (program c).length := by
  have := program_length c
  omega

/-- Where an outcome is a next state, that state meets `P`. -/
def NextMeets (P : State → Prop) : Host.Outcome State Fault Refusal → Prop
  | .next t => P t
  | .fault _ => True
  | .refused _ => True

@[simp] theorem nextMeets_next (P : State → Prop) (t : State) : NextMeets P (.next t) ↔ P t := Iff.rfl

@[simp] theorem nextMeets_fault (P : State → Prop) (f : Fault) : NextMeets P (.fault f) := trivial

@[simp] theorem nextMeets_refused (P : State → Prop) (r : Refusal) : NextMeets P (.refused r) := trivial

/-! ### The invariant of the block (R17, R33), operation by operation -/

namespace State.Inv

variable {s t : State}

theorem of_idle (hbank : t.bank.ReservedZero) (hseq : t.seq = .idle) : t.Inv := ⟨hbank, hseq ▸ trivial⟩

/-- Only the bank and the sequencer matter. -/
theorem of_bank_seq_eq (h : s.Inv) (hbank : t.bank = s.bank) (hseq : t.seq = s.seq) : t.Inv :=
  ⟨hbank ▸ h.1, hseq ▸ h.2⟩

theorem writeBank_pack (h : s.Inv) (r : RegId) (fv : List FieldValue) : (s.writeBank r (pack r fv)).Inv :=
  ⟨h.1.set_pack r fv, h.2⟩

theorem logResult (h : s.Inv) (m : MicroResult) : (s.logResult m).Inv := h.of_bank_seq_eq rfl rfl

theorem busWrite (h : s.Inv) (a : Byte) (w : Word) : (s.busWrite a w).Inv := h.of_bank_seq_eq rfl rfl

theorem idleTick (h : s.Inv) : s.idleTick.Inv := h.of_bank_seq_eq rfl rfl

theorem setInbox (h : s.Inv) (q : List Request) : (s.setInbox q).Inv := h.of_bank_seq_eq rfl rfl

theorem setPlaced (h : s.Inv) (e : Option Encoded) : (s.setPlaced e).Inv := h.of_bank_seq_eq rfl rfl

theorem endCommand (h : s.bank.ReservedZero) (st : Status) : (s.endCommand st).Inv := of_idle h rfl

theorem powerOnReset (s : State) : s.powerOnReset.Inv := of_idle defaultImage_reservedZero rfl

theorem setSeq_run (h : s.bank.ReservedZero) {c : Command} {k : Nat} (hpos : 1 ≤ k) (hle : k ≤ (program c).length) :
    (s.setSeq (.run c k)).Inv :=
  ⟨h, hpos, hle⟩

/-! ### The sequencer -/

/-- The step index grows only where the step is not the last one, so that it stays in the program (R96 to R98). -/
theorem seqStep (h : s.bank.ReservedZero) {c : Command} {k : Nat} (hle : k ≤ (program c).length) (p : ProgStep) :
    (seqStep c k p s).Inv := by
  have hbank := h.performStep p
  by_cases hok : (performStep p s).2 = .ok
  · by_cases hlast : k = (program c).length
    · rw [seqStep_of_ok_of_last hok hlast]
      exact endCommand hbank _
    · rw [seqStep_of_ok_of_ne hok hlast]
      exact setSeq_run hbank (by omega) (by omega)
  · rw [seqStep_of_ne_ok hok]
    exact endCommand hbank _

/-- The steps left, from index `k` on, reach no further than the program's end. -/
theorem runSteps (h : s.Inv) {c : Command} {ps : List ProgStep} {k : Nat}
    (hps : k + ps.length ≤ (program c).length + 1) : (runSteps c ps k s).Inv := by
  induction ps generalizing k s with
  | nil => exact h
  | cons p rest ih =>
    rw [List.length_cons] at hps
    have hstep : (Machine.seqStep c k p s).Inv := seqStep h.1 (by omega) p
    simp only [Machine.runSteps]
    split
    · exact hstep
    · exact ih hstep (by omega)

theorem accept (h : s.Inv) (c : Command) : (accept c s).Inv :=
  setSeq_run h.1 le_rfl (program_length_pos c)

theorem runCommand (h : s.Inv) (c : Command) : NextMeets Inv (runCommand c s) := by
  unfold Machine.runCommand
  split
  · exact (h.accept c).runSteps (by omega)
  · exact nextMeets_fault _ _

/-- The premise that a step of the program stands at the index is the machine's own check (R33). -/
theorem runningStep (h : s.Inv) (c : Command) (k : Nat) : NextMeets Inv (runningStep c k s) := by
  cases k with
  | zero => exact nextMeets_fault _ _
  | succ j =>
    simp only [Machine.runningStep]
    split
    · next p hp => exact seqStep h.1 (List.getElem?_eq_some_iff.mp hp).1 p
    · exact nextMeets_fault _ _

/-! ### Instructions, words and the step -/

theorem runSetStructured (h : s.Inv) (r : RegId) (fv : List FieldValue) : NextMeets Inv (runSetStructured r fv s) := by
  rw [runSetStructured_eq, nextMeets_next]
  split
  · exact (h.writeBank_pack r fv).logResult _
  · exact h.logResult _

theorem exec (h : s.Inv) (i : Instr) : NextMeets Inv (exec i s) := by
  cases i with
  | initializeCodec | reset | setLineInVolume | setHeadphoneVolume | headphoneMute => exact h.runCommand _
  | get r => exact h.logResult _
  | setStructuredLli | setStructuredRli | setStructuredLhp | setStructuredRhp | setStructuredAapc | setStructuredDapc
  | setStructuredPdc | setStructuredDaif | setStructuredSc | setStructuredAc => exact h.runSetStructured _ _
  | writeReg | writeRaw => exact (h.busWrite _ _).logResult _
  | frameLli | frameRli | frameLhp | frameRhp | frameAapc | frameDapc | framePdc | frameDaif | frameSc | frameAc | frameRst =>
    exact h.busWrite _ _

theorem takeWord (h : s.Inv) (e : Encoded) : NextMeets Inv (takeWord e s) := by
  unfold Machine.takeWord
  split
  · exact h.exec _
  · cases e with
    | command w => exact endCommand h.1 _
    | microOp | busFrame => exact nextMeets_refused _ _

theorem step (h : s.Inv) : NextMeets Inv (step s) := by
  unfold Machine.step
  split
  · exact h.runningStep _ _
  · split
    · exact (h.setPlaced _).takeWord _
    · split
      · exact h.idleTick
      · exact powerOnReset _
      · exact (h.setInbox _).takeWord _

end State.Inv

/-- Settles O48: each operation keeps the bank's reserved bits 0, and the step index grows only short of the program's last step. -/
theorem stepKeepsInvariant : Obligations.StepKeepsInvariant := by
  intro s t hs ht
  have h : NextMeets State.Inv (step s) := hs.step
  rwa [ht, nextMeets_next] at h

/-! ### Packing and unpacking (R16, R62, R63) -/

/-- A value that fits has no bit at or above its field's width. -/
theorem getLsbD_of_le_fieldLimit {f : Field} {v : FieldValue} (h : v ≤ fieldLimit f) {i : Nat} (hi : f.width ≤ i) :
    v.getLsbD i = false := by
  by_cases h16 : i < 16
  · have hle : v.toNat ≤ (2 ^ f.width - 1) % 2 ^ 16 := by simpa [fieldLimit, BitVec.le_def] using h
    have hpow : 2 ^ f.width ≤ 2 ^ i := Nat.pow_le_pow_right (by decide) hi
    have hpos : 0 < 2 ^ f.width := Nat.two_pow_pos _
    have hmod : (2 ^ f.width - 1) % 2 ^ 16 ≤ 2 ^ f.width - 1 := Nat.mod_le _ _
    exact Nat.testBit_lt_two_pow (by omega)
  · exact BitVec.getLsbD_of_ge _ _ (by omega)

/-- The mask is exactly the bits of the fields (R64). -/
theorem getLsbD_maskFields {fs : List Field} {i : Nat} :
    (maskFields fs).getLsbD i = true ↔ i < 16 ∧ ∃ f ∈ fs, f.lo ≤ i ∧ i < f.lo + f.width := by
  induction fs with
  | nil => simp [maskFields, packFields]
  | cons f fs ih =>
    have hcons : maskFields (f :: fs) = ((fieldLimit f &&& fieldLimit f) <<< f.lo) ||| maskFields fs := rfl
    have hbit : ((fieldLimit f &&& fieldLimit f) <<< f.lo).getLsbD i = true ↔ i < 16 ∧ f.lo ≤ i ∧ i < f.lo + f.width := by
      simp only [getLsbD_placed, getLsbD_fieldLimit, Bool.and_eq_true, decide_eq_true_eq]
      omega
    rw [hcons, BitVec.getLsbD_or, Bool.or_eq_true, hbit, ih, ← and_or_left]
    simp only [List.exists_mem_cons_iff]

/-- Fields packed above field `f` set no bit of it. -/
theorem packFields_getLsbD_of_lt {fs : List Field} {i : Nat} (h : ∀ g ∈ fs, i < g.lo) (fv : List FieldValue) :
    (packFields fs fv).getLsbD i = false := by
  apply packFields_getLsbD_of_mask
  rw [Bool.eq_false_iff, ne_eq, getLsbD_maskFields]
  rintro ⟨-, g, hg, hlo, -⟩
  exact absurd (h g hg) (by omega)

/-- The lowest field of a packed word is the value packed there. -/
theorem fieldOf_packFields_cons {f : Field} {fs : List Field} {v : FieldValue} (hv : v ≤ fieldLimit f)
    (htop : f.lo + f.width ≤ 16) (hfs : ∀ g ∈ fs, f.lo + f.width ≤ g.lo) (vs : List FieldValue) :
    fieldOf f (packFields (f :: fs) (v :: vs)) = v := by
  apply BitVec.eq_of_getLsbD_eq
  intro i _
  rw [getLsbD_fieldOf, packFields, BitVec.getLsbD_or, getLsbD_placed]
  by_cases hi : i < f.width
  · have hrest : (packFields fs vs).getLsbD (f.lo + i) = false :=
      packFields_getLsbD_of_lt (fun g hg => by have := hfs g hg; omega) vs
    have h16 : f.lo + i < 16 := by omega
    rw [hrest]
    simp [hi, h16]
  · simp [hi, getLsbD_of_le_fieldLimit hv (Nat.le_of_not_lt hi)]

/-- A field above the lowest one does not see the value packed there. -/
theorem fieldOf_packFields_cons_of_le {f g : Field} (hfg : f.lo + f.width ≤ g.lo) (fs : List Field) (v : FieldValue)
    (vs : List FieldValue) : fieldOf g (packFields (f :: fs) (v :: vs)) = fieldOf g (packFields fs vs) := by
  apply BitVec.eq_of_getLsbD_eq
  intro i _
  have hout : ¬g.lo + i < f.lo + f.width := by omega
  rw [getLsbD_fieldOf, getLsbD_fieldOf, packFields, BitVec.getLsbD_or, getLsbD_placed, decide_eq_false hout]
  simp

/-- Over any disjoint fields in ascending order, the round trip is lossless for values that fit. -/
theorem unpackFields_packFields {fs : List Field} {fv : List FieldValue} (hfit : fieldsFit fs fv = true)
    (hdisjoint : fs.Pairwise (fun f g => f.lo + f.width ≤ g.lo)) (htop : ∀ f ∈ fs, f.lo + f.width ≤ 16) :
    unpackFields fs (packFields fs fv) = fv := by
  induction fs generalizing fv with
  | nil =>
    cases fv with
    | nil => rfl
    | cons v vs => simp [fieldsFit] at hfit
  | cons f fs ih =>
    cases fv with
    | nil => simp [fieldsFit] at hfit
    | cons v vs =>
      obtain ⟨hf, hfs⟩ := List.pairwise_cons.mp hdisjoint
      obtain ⟨hftop, hfstop⟩ := List.forall_mem_cons.mp htop
      simp only [fieldsFit, Bool.and_eq_true, decide_eq_true_eq] at hfit
      obtain ⟨hv, hvs⟩ := hfit
      have hhead : fieldOf f (packFields (f :: fs) (v :: vs)) = v := fieldOf_packFields_cons hv hftop hf vs
      have htail : unpackFields fs (packFields (f :: fs) (v :: vs)) = unpackFields fs (packFields fs vs) :=
        List.map_congr_left fun g hg => fieldOf_packFields_cons_of_le (hf g hg) fs v vs
      calc unpackFields (f :: fs) (packFields (f :: fs) (v :: vs))
          = fieldOf f (packFields (f :: fs) (v :: vs)) :: unpackFields fs (packFields (f :: fs) (v :: vs)) := rfl
        _ = v :: vs := by rw [hhead, htail, ih hvs hfs hfstop]

theorem layout_pairwise (r : RegId) : (layout r).Pairwise (fun f g => f.lo + f.width ≤ g.lo) := by
  cases r <;> decide

theorem layout_top_le (r : RegId) : ∀ f ∈ layout r, f.lo + f.width ≤ 9 := by
  cases r <;> decide

theorem unpack_pack {r : RegId} {fv : List FieldValue} (h : fieldsFit (layout r) fv = true) : unpack r (pack r fv) = fv :=
  unpackFields_packFields h (layout_pairwise r) fun f hf => (layout_top_le r f hf).trans (by decide)

theorem getLsbD_mask {r : RegId} {i : Nat} :
    (mask r).getLsbD i = true ↔ ∃ f ∈ layout r, f.lo ≤ i ∧ i < f.lo + f.width := by
  rw [mask, getLsbD_maskFields, and_iff_right_iff_imp]
  rintro ⟨f, hf, -, hi⟩
  have := layout_top_le r f hf
  omega

/-- Settles O4, from the round trip over any disjoint fields. -/
theorem unpackInvertsPack : Obligations.UnpackInvertsPack := fun r fv hfit =>
  ⟨unpack_pack hfit, packFields_getLsbD_of_mask (layout r) fv, fun _ => getLsbD_mask, layout_pairwise r, layout_top_le r⟩

/-! ### The default image (R30) and the addresses (R14) -/

/-- Settles O1: the image's words and fields are closed, and power-on reset makes the bank the image in every state. -/
theorem resetBankIsDefaultImage : Obligations.ResetBankIsDefaultImage :=
  ⟨rfl, State.powerOnReset_bank, by decide⟩

theorem addr_injective : Function.Injective addr := fun q r h =>
  Option.some.inj <| by rw [← regAt_addr q, h, regAt_addr r]

theorem addr_le (r : RegId) : addr r ≤ 0x09#8 := by cases r <;> decide

theorem exists_addr_eq_ofNat : ∀ n < 10, ∃ r ∈ allRegs, addr r = BitVec.ofNat 8 n := by decide

theorem le_nine_iff_exists_addr {a : Byte} : a ≤ 0x09#8 ↔ ∃ r : RegId, addr r = a := by
  constructor
  · intro h
    obtain ⟨r, -, hr⟩ := exists_addr_eq_ofNat a.toNat (Nat.lt_succ_of_le h)
    exact ⟨r, by simpa using hr⟩
  · rintro ⟨r, rfl⟩
    exact addr_le r

theorem regAt_eq_some_iff {a : Byte} {r : RegId} : regAt a = some r ↔ addr r = a :=
  ⟨addr_of_regAt, fun h => h ▸ regAt_addr r⟩

theorem regIndex_toNat (r : RegId) : (regIndex r).toNat = (addr r).toNat := by cases r <;> decide

/-- Settles O3: `regAt` inverts `addr`, so that `addr` is injective. -/
theorem registerAddressesAreDistinctAndContiguous : Obligations.RegisterAddressesAreDistinctAndContiguous :=
  ⟨by decide, fun _ _ h => addr_injective h, fun _ => le_nine_iff_exists_addr, fun _ _ => regAt_eq_some_iff,
    fun r => ⟨regIndex_toNat r, regOfIndex_regIndex r⟩⟩

end Sys2Proof.Machine

/-! PROOFS. The device behind the bus (20_memory.md R53 to R57): what an accepted and a failed write leave in every register, and what
is in effect afterwards. -/

namespace Sys2Proof.Machine

/-! ### The words held after a bus write -/

namespace Device

theorem mix_regs (took : RegId → Bool) (d e : Device) (q : RegId) :
    (d.mix took e).regs.get q = if took q then e.regs.get q else d.regs.get q := RegFile.get_ofFn _ q

theorem mix_effect (took : RegId → Bool) (d e : Device) (q : RegId) :
    (d.mix took e).effect.get q = if took q then e.effect.get q else d.effect.get q := RegFile.get_ofFn _ q

theorem busWrite_addr_ok (n : Nat) (r : RegId) (v : Word) (d : Device) :
    d.busWrite n (addr r) v .ok = (d.settle n).write n r (v.setWidth 9) := accept_addr n r v _

theorem busWrite_addr_busError (n : Nat) (r : RegId) (v : Word) (d : Device) :
    d.busWrite n (addr r) v .busError =
      (d.settle n).mix (Config.failedWriteTook n) (d.busWrite n (addr r) v .ok) := by
  rw [busWrite_addr_ok]
  exact reject_addr n r v _

/-- An accepted reset trigger, whatever its payload (R54). -/
theorem busWrite_reset_ok (n : Nat) (v : Word) (d : Device) : d.busWrite n resetAddr v .ok = powerOn := rfl

/-- A failed reset trigger resets all of the device or, but for effects that arrive, none of it (R57, D26). -/
theorem busWrite_reset_busError (n : Nat) (v : Word) (d : Device) :
    d.busWrite n resetAddr v .busError = d.settle n ∨ d.busWrite n resetAddr v .busError = powerOn := by
  have h : d.busWrite n resetAddr v .busError = if Config.failedResetTook n then powerOn else d.settle n := rfl
  rw [h]
  split
  · exact .inr rfl
  · exact .inl rfl

theorem linkedReg_setWidth_eq_some {r q : RegId} {v : Word} :
    linkedReg r (v.setWidth 9) = some q ↔ v.getLsbD 8 = true ∧ pairedReg r = some q := by
  simp [linkedReg_eq_some]

section
variable (n : Nat) (v : Word) (d : Device) {r q : RegId}

/-- The addressed register takes the low nine bits (R53). -/
theorem busWrite_ok_regs_self : (d.busWrite n (addr r) v .ok).regs.get r = v.setWidth 9 := by
  rw [busWrite_addr_ok, write_regs, if_pos rfl]

/-- The paired channel takes the copy (R55). -/
theorem busWrite_ok_regs_paired {v : Word} (hv : v.getLsbD 8 = true) (hq : pairedReg r = some q) :
    (d.busWrite n (addr r) v .ok).regs.get q = copyInto (copyMask Config.bothCopy r) (d.regs.get q) (v.setWidth 9) := by
  rw [busWrite_addr_ok, write_regs, if_neg (pairedReg_ne hq).symm, if_pos (linkedReg_setWidth_eq_some.mpr ⟨hv, hq⟩),
    settle_regs]

/-- No other register changes (R53, R55). -/
theorem busWrite_ok_regs_of_ne {v : Word} (hne : q ≠ r) (hv : v.getLsbD 8 = false ∨ pairedReg r ≠ some q) :
    (d.busWrite n (addr r) v .ok).regs.get q = d.regs.get q := by
  have hlink : linkedReg r (v.setWidth 9) ≠ some q := fun h => by
    obtain ⟨hbit, hpair⟩ := linkedReg_setWidth_eq_some.mp h
    rcases hv with hv | hv
    · exact absurd (hbit.symm.trans hv) (by decide)
    · exact hv hpair
  rw [busWrite_addr_ok, write_regs, if_neg hne, if_neg hlink, settle_regs]

/-- After a failed write each register holds its old word or the one an accepted write gives it (R57, D26). -/
theorem busWrite_busError_regs : (d.busWrite n (addr r) v .busError).regs.get q = d.regs.get q ∨
    (d.busWrite n (addr r) v .busError).regs.get q = (d.busWrite n (addr r) v .ok).regs.get q := by
  rw [busWrite_addr_busError, mix_regs]
  split
  · exact .inr rfl
  · exact .inl rfl

end

end Device

/-- Settles O22, register by register. -/
theorem deviceRegisterTakesAcceptedWrite : Obligations.DeviceRegisterTakesAcceptedWrite := by
  intro r v s hans
  refine ⟨_, exec_writeRaw (addr r) v s, ?_⟩
  rw [State.logResult_device, State.busWrite_device, hans]
  exact ⟨Device.busWrite_ok_regs_self _ v _, fun q hne hv => Device.busWrite_ok_regs_of_ne _ _ hne hv⟩

/-- Settles O24: the words an accepted write gives are those a failed one may have given. -/
theorem failedWriteLeavesOldOrNewWord : Obligations.FailedWriteLeavesOldOrNewWord := by
  intro s hans
  constructor
  · intro r v
    refine ⟨_, exec_writeRaw (addr r) v s, ?_⟩
    rw [State.logResult_device, State.busWrite_device, hans]
    have hold q := Device.busWrite_busError_regs s.draws v s.device (r := r) (q := q)
    refine ⟨?_, fun q hv hq => ?_, fun q hne hv => ?_⟩
    · rw [← Device.busWrite_ok_regs_self s.draws v s.device]
      exact hold r
    · rw [← Device.busWrite_ok_regs_paired s.draws s.device hv hq]
      exact hold q
    · exact (hold q).elim id fun h => h.trans (Device.busWrite_ok_regs_of_ne _ _ hne hv)
  · intro v
    refine ⟨_, exec_writeRaw resetAddr v s, ?_⟩
    rw [State.logResult_device, State.busWrite_device, hans]
    rcases Device.busWrite_reset_busError s.draws v s.device with h | h <;> rw [h]
    · exact .inl fun r => rfl
    · exact .inr Device.powerOn_regs

/-! ### The paired channel's volume (R55, D27) -/

theorem getLsbD_copyInto_of_mask {m : Word9} {i : Nat} (h : m.getLsbD i = true) (old new : Word9) :
    (copyInto m old new).getLsbD i = new.getLsbD i := by
  simp [copyInto, h]

/-- Every reading of BOTH_COPY copies the line-in volume, bits [4:0]. -/
theorem getLsbD_copyMask_of_lt_five (c : BothCopy) (r : RegId) : ∀ i < 5, (copyMask c r).getLsbD i = true := by
  cases c <;> cases r <;> decide

/-- Every reading of BOTH_COPY copies the headphone volume, bits [6:0]. -/
theorem getLsbD_copyMask_of_lt_seven (c : BothCopy) {r : RegId} (h : r = .lhp ∨ r = .rhp) :
    ∀ i < 7, (copyMask c r).getLsbD i = true := by
  rcases h with rfl | rfl <;> cases c <;> decide

/-- Where the copy takes in the low `k` bits of the word, the paired channel holds those of the word sent. -/
theorem exec_writeRaw_paired_extractLsb' {r q : RegId} {k : Nat} {v : Word} {s : State} (hans : s.answerAt 0 = .ok)
    (hv : v.getLsbD 8 = true) (hq : pairedReg r = some q) (hk : k ≤ 9)
    (hmask : ∀ i < k, (copyMask Config.bothCopy r).getLsbD i = true) :
    ∃ t, exec (.writeRaw (addr r) v) s = .next t ∧ (t.device.regs.get q).extractLsb' 0 k = v.extractLsb' 0 k := by
  refine ⟨_, exec_writeRaw (addr r) v s, ?_⟩
  rw [State.logResult_device, State.busWrite_device, hans, Device.busWrite_ok_regs_paired _ _ hv hq]
  apply BitVec.eq_of_getLsbD_eq
  intro i hi
  have hbit := getLsbD_copyInto_of_mask (hmask i hi) (s.device.regs.get q) (v.setWidth 9)
  have hi9 : i < 9 := by omega
  simpa [hi, hi9] using hbit

/-- Settles O25, from the low bits that every reading of BOTH_COPY copies. -/
theorem linkedChannelTakesVolume : Obligations.LinkedChannelTakesVolume := by
  intro v s hans hv
  refine ⟨?_, ?_, ?_, ?_⟩
  · exact exec_writeRaw_paired_extractLsb' hans hv rfl (by decide) (getLsbD_copyMask_of_lt_five _ _)
  · exact exec_writeRaw_paired_extractLsb' hans hv rfl (by decide) (getLsbD_copyMask_of_lt_five _ _)
  · exact exec_writeRaw_paired_extractLsb' hans hv rfl (by decide) (getLsbD_copyMask_of_lt_seven _ (.inl rfl))
  · exact exec_writeRaw_paired_extractLsb' hans hv rfl (by decide) (getLsbD_copyMask_of_lt_seven _ (.inr rfl))

/-! ### The words in effect (R55, R56) -/

namespace Device

variable {d : Device} {r q : RegId}

/-- An active device has no reason to defer a register that is no headphone register (log 12). -/
theorem mayDefer_eq_false (hac : (d.regs.get .ac).getLsbD 0 = true) (hl : r ≠ .lhp) (hr : r ≠ .rhp) (sent v : Word9) :
    d.mayDefer sent r v = false := by
  have hactive : d.inactive = false := by simp [inactive, hac]
  have hzero w : zeroCross r w = false := by simp [zeroCross, hl, hr]
  simp [mayDefer, hactive, hzero]

theorem put_effect_of_not_mayDefer {sent v : Word9} (h : d.mayDefer sent r v = false) (n : Nat) :
    (d.put n sent r v).effect.get r = v := by
  simp [put, h]

/-- The change of the paired channel leaves the addressed register's effect alone. -/
theorem write_effect_self (n : Nat) (v : Word9) : (d.write n r v).effect.get r = (d.put n v r v).effect.get r := by
  unfold write
  split
  · rfl
  · next p hp =>
    have hne : r ≠ p := pairedReg_ne (linkedReg_eq_some.mp hp).2
    exact (put_effect _ _ _ _ _ r).resolve_right fun h => hne h.1

/-- After an accepted write, what is in effect is the old effect or a word held, before or now (R55, R56). -/
theorem busWrite_ok_effect (n : Nat) (v : Word) :
    (d.busWrite n (addr r) v .ok).effect.get q = d.effect.get q ∨
    (d.busWrite n (addr r) v .ok).effect.get q = d.regs.get q ∨
    (d.busWrite n (addr r) v .ok).effect.get q = (d.busWrite n (addr r) v .ok).regs.get q := by
  rw [busWrite_addr_ok]
  rcases (d.settle n).write_effect n r (v.setWidth 9) q with h | h
  · rw [h]
    exact (d.settle_effect n q).imp_right .inl
  · exact .inr (.inr h)

/-- A failed write mixes both words of each register from before and after, so that the same holds of it (R57). -/
theorem busWrite_effect (n : Nat) (v : Word) (ans : Answer) :
    (d.busWrite n (addr r) v ans).effect.get q = d.effect.get q ∨
    (d.busWrite n (addr r) v ans).effect.get q = d.regs.get q ∨
    (d.busWrite n (addr r) v ans).effect.get q = (d.busWrite n (addr r) v ans).regs.get q := by
  cases ans with
  | ok => exact busWrite_ok_effect n v
  | busError =>
    rw [busWrite_addr_busError, mix_effect, mix_regs]
    split
    · exact busWrite_ok_effect n v
    · exact (d.settle_effect n q).imp_right .inl

end Device

/-- Settles O26: nothing lets the device hold the addressed register's effect back. -/
theorem undeferredWriteTakesEffectAtOnce : Obligations.UndeferredWriteTakesEffectAtOnce := by
  intro r v s hans hac hl hr
  refine ⟨_, exec_writeRaw (addr r) v s, ?_⟩
  have hdefer : (s.device.settle s.draws).mayDefer (v.setWidth 9) r (v.setWidth 9) = false :=
    Device.mayDefer_eq_false hac hl hr _ _
  rw [State.logResult_device, State.busWrite_device, hans, Device.busWrite_addr_ok, Device.write_effect_self,
    Device.put_effect_of_not_mayDefer hdefer]

theorem step_eq_idleTick {s : State} (hseq : s.seq = .idle) (hplaced : s.placed = none) (hinbox : s.inbox = []) :
    step s = .next s.idleTick := by
  simp only [step, hseq, hplaced, hinbox]

/-- Settles O57: a write and an idle step bring into effect only words held. -/
theorem effectIsOldOrHeldWord : Obligations.EffectIsOldOrHeldWord :=
  ⟨fun r v s => ⟨_, exec_writeRaw (addr r) v s, fun _ => Device.busWrite_effect _ _ _⟩,
    fun _ hseq hplaced hinbox => ⟨_, step_eq_idleTick hseq hplaced hinbox, rfl, Device.settle_effect _ _⟩⟩

/-! ### The reset trigger (R54) -/

/-- An accepted reset trigger leaves the default image held, whatever its payload. -/
theorem State.busWrite_reset_regs {s : State} (hans : s.answerAt 0 = .ok) (v : Word) (r : RegId) :
    (s.busWrite resetAddr v).device.regs.get r = (defaultImage.get r).setWidth 9 := by
  rw [State.busWrite_device, hans, Device.busWrite_reset_ok, Device.powerOn_regs]

/-- A sequencer step is its program step and then a change of the sequencer, or the end of the command with its status (R96 to R98). -/
theorem seqStep_cases (c : Command) (k : Nat) (p : ProgStep) (s : State) :
    (∃ q, seqStep c k p s = (performStep p s).1.setSeq q) ∨ ∃ st, seqStep c k p s = (performStep p s).1.endCommand st := by
  by_cases hok : (performStep p s).2 = .ok
  · by_cases hlast : k = (program c).length
    · exact .inr ⟨_, seqStep_of_ok_of_last hok hlast⟩
    · exact .inl ⟨_, seqStep_of_ok_of_ne hok hlast⟩
  · exact .inr ⟨_, seqStep_of_ne_ok hok⟩

theorem seqStep_device (c : Command) (k : Nat) (p : ProgStep) (s : State) :
    (seqStep c k p s).device = (performStep p s).1.device := by
  obtain ⟨q, h⟩ | ⟨st, h⟩ := seqStep_cases c k p s <;> rw [h]
  · exact State.setSeq_device q _
  · exact State.endCommand_device st _

theorem seqStep_bank (c : Command) (k : Nat) (p : ProgStep) (s : State) :
    (seqStep c k p s).bank = (performStep p s).1.bank := by
  obtain ⟨q, h⟩ | ⟨st, h⟩ := seqStep_cases c k p s <;> rw [h]
  · exact State.setSeq_bank q _
  · exact State.endCommand_bank st _

/-- The steps of a one-step program are its one sequencer step. -/
theorem runSteps_singleton (c : Command) (p : ProgStep) (k : Nat) (s : State) :
    runSteps c [p] k s = seqStep c k p s := by
  simp only [runSteps]
  split <;> rfl

/-- RESET is the accepted command's one reset trigger (R109). -/
theorem exec_reset_of_idle {s : State} (h : s.seq = .idle) :
    exec .reset s = .next (seqStep .reset 1 .resetTrigger (accept .reset s)) := by
  have hrun : exec .reset s = .next (runSteps .reset [.resetTrigger] 1 (accept .reset s)) := runCommand_of_idle h
  rw [hrun, runSteps_singleton]

/-- Settles O23: the three ways to send the reset trigger make the same bus write, but for a payload the device does not read. -/
theorem resetTriggerReturnsDeviceToDefaults : Obligations.ResetTriggerReturnsDeviceToDefaults := by
  intro v s hans
  refine ⟨⟨_, exec_writeRaw resetAddr v s, ?_⟩, ⟨_, rfl, ?_⟩, fun hidle => ⟨_, exec_reset_of_idle hidle, ?_⟩⟩
  · exact State.busWrite_reset_regs hans v
  · exact State.busWrite_reset_regs hans _
  · rw [seqStep_device]
    exact State.busWrite_reset_regs (s := accept .reset s) hans resetValue

end Sys2Proof.Machine

/-! PROOFS. What an operation adds to the record (20_memory.md R48, R158) and where the commands write (R41, R121): the record
only grows, by few frames, each to an address of the programs. -/

namespace Sys2Proof.Machine

/-- From `s` to `t` the trace grows by at most `n` frames, each of which meets `P`, and the statuses and results only grow. -/
def State.Grows (P : TraceEntry → Prop) (n : Nat) (s t : State) : Prop :=
  (∃ fs : List TraceEntry, t.trace = s.trace ++ fs ∧ fs.length ≤ n ∧ ∀ e ∈ fs, P e) ∧
    s.statuses <+: t.statuses ∧ s.results <+: t.results

/-- Whatever the bank and the answer, the frame of the program step meets `P`. -/
def ProgStep.Sends (P : TraceEntry → Prop) (p : ProgStep) : Prop :=
  ∀ (b : RegFile Word) (a : Answer), P ⟨Config.deviceAddr, (p.frame b).1, (p.frame b).2, a⟩

/-- "to `DEVICE_ADDR`" (R48). -/
def TraceEntry.ToDevice (e : TraceEntry) : Prop := e.device = Config.deviceAddr

theorem ProgStep.sends_toDevice (p : ProgStep) : p.Sends TraceEntry.ToDevice := fun _ _ => rfl

namespace State.Grows

variable {P : TraceEntry → Prop} {m n : Nat} {s t u : State}

theorem of_trace_eq (htrace : t.trace = s.trace) (hstatuses : s.statuses <+: t.statuses) (hresults : s.results <+: t.results) :
    Grows P n s t :=
  ⟨⟨[], by simp [htrace], by simp, by simp⟩, hstatuses, hresults⟩

theorem refl (s : State) : Grows P n s s := of_trace_eq rfl List.prefix_rfl List.prefix_rfl

theorem trans (hst : Grows P m s t) (htu : Grows P n t u) : Grows P (m + n) s u := by
  obtain ⟨⟨fs, hfs, hfslen, hfsP⟩, hstatuses, hresults⟩ := hst
  obtain ⟨⟨gs, hgs, hgslen, hgsP⟩, hstatuses', hresults'⟩ := htu
  refine ⟨⟨fs ++ gs, by rw [hgs, hfs, List.append_assoc], ?_, ?_⟩, hstatuses.trans hstatuses', hresults.trans hresults'⟩
  · rw [List.length_append]
    omega
  · exact List.forall_mem_append.mpr ⟨hfsP, hgsP⟩

theorem mono (h : Grows P m s t) (hmn : m ≤ n) : Grows P n s t :=
  h.imp_left fun ⟨fs, hfs, hlen, hP⟩ => ⟨fs, hfs, hlen.trans hmn, hP⟩

theorem busWrite {a : Byte} {v : Word} (h : P ⟨Config.deviceAddr, a, v, s.answerAt 0⟩) (hn : 1 ≤ n) :
    Grows P n s (s.busWrite a v) :=
  ⟨⟨[_], State.busWrite_trace a v s, hn, by simpa using h⟩, List.prefix_rfl, List.prefix_rfl⟩

theorem logResult (h : Grows P n s t) (r : MicroResult) : Grows P n s (t.logResult r) := by
  obtain ⟨htrace, hstatuses, hresults⟩ := h
  exact ⟨htrace, hstatuses, hresults.trans (List.prefix_append _ _)⟩

theorem endCommand (h : Grows P n s t) (st : Status) : Grows P n s (t.endCommand st) := by
  obtain ⟨htrace, hstatuses, hresults⟩ := h
  exact ⟨htrace, hstatuses.trans (List.prefix_append _ _), hresults⟩

/-! ### The sequencer -/

/-- A program step is one frame. -/
theorem performStep {p : ProgStep} (hfits : p.fits = true) (hp : p.Sends P) (s : State) :
    Grows P 1 s (performStep p s).1 := by
  rw [performStep_of_fits hfits]
  exact busWrite (s := { s with bank := p.update s.bank }) (hp _ _) le_rfl

theorem seqStep {p : ProgStep} (hfits : p.fits = true) (hp : p.Sends P) (c : Command) (k : Nat) (s : State) :
    Grows P 1 s (seqStep c k p s) := by
  have hstep : Grows P 1 s (Machine.performStep p s).1 := performStep hfits hp s
  obtain ⟨q, h⟩ | ⟨st, h⟩ := seqStep_cases c k p s <;> rw [h]
  · exact hstep
  · exact hstep.endCommand st

/-- One frame for each program step, at most. -/
theorem runSteps {ps : List ProgStep} (hps : ∀ p ∈ ps, p.fits = true ∧ p.Sends P) (c : Command) (k : Nat) (s : State) :
    Grows P ps.length s (runSteps c ps k s) := by
  induction ps generalizing k s with
  | nil => exact refl s
  | cons p rest ih =>
    obtain ⟨⟨hfits, hp⟩, hrest⟩ := List.forall_mem_cons.mp hps
    have hstep : Grows P 1 s (Machine.seqStep c k p s) := seqStep hfits hp c k s
    simp only [Machine.runSteps]
    split
    · exact hstep.mono (by simp)
    · rw [List.length_cons, Nat.add_comm]
      exact hstep.trans (ih hrest _ _)

/-- A command adds at most the eight frames of INITIALIZE (R158). -/
theorem runSteps_program {c : Command} (hc : ∀ p ∈ program c, p.Sends P) (k : Nat) (s : State) :
    Grows P 8 s (Machine.runSteps c (program c) k s) := by
  have hlen : (program c).length ≤ 8 := by
    have := program_length c
    omega
  exact (runSteps (fun p hp => ⟨program_fits hp, hc p hp⟩) c k s).mono hlen

/-! ### Instructions, words and the step -/

theorem runCommand (c : Command) (s : State) : NextMeets (Grows TraceEntry.ToDevice 8 s) (runCommand c s) := by
  unfold Machine.runCommand
  split
  · exact runSteps_program (s := accept c s) (fun p _ => p.sends_toDevice) 1
  · exact nextMeets_fault _ _

theorem runningStep (c : Command) (k : Nat) (s : State) : NextMeets (Grows TraceEntry.ToDevice 8 s) (runningStep c k s) := by
  cases k with
  | zero => exact nextMeets_fault _ _
  | succ j =>
    simp only [Machine.runningStep]
    split
    · next p hp =>
      exact (seqStep (program_fits (List.mem_of_getElem? hp)) p.sends_toDevice c (j + 1) s).mono (by decide)
    · exact nextMeets_fault _ _

theorem runSetStructured (r : RegId) (fv : List FieldValue) (s : State) : NextMeets (Grows P n s) (runSetStructured r fv s) := by
  rw [runSetStructured_eq, nextMeets_next]
  split
  · exact logResult (t := s.writeBank r (pack r fv)) (refl s) _
  · exact (refl s).logResult _

theorem exec (i : Instr) (s : State) : NextMeets (Grows TraceEntry.ToDevice 8 s) (exec i s) := by
  have hbus (a : Byte) (v : Word) : Grows TraceEntry.ToDevice 8 s (s.busWrite a v) := busWrite rfl (by decide)
  cases i with
  | initializeCodec | reset | setLineInVolume | setHeadphoneVolume | headphoneMute => exact runCommand _ s
  | get r => exact (refl s).logResult _
  | setStructuredLli | setStructuredRli | setStructuredLhp | setStructuredRhp | setStructuredAapc | setStructuredDapc
  | setStructuredPdc | setStructuredDaif | setStructuredSc | setStructuredAc => exact runSetStructured _ _ s
  | writeReg | writeRaw => exact (hbus _ _).logResult _
  | frameLli | frameRli | frameLhp | frameRhp | frameAapc | frameDapc | framePdc | frameDaif | frameSc | frameAc | frameRst =>
    exact hbus _ _

theorem takeWord (e : Encoded) (s : State) : NextMeets (Grows TraceEntry.ToDevice 8 s) (takeWord e s) := by
  unfold Machine.takeWord
  split
  · exact exec _ s
  · cases e with
    | command w => exact (refl s).endCommand _
    | microOp | busFrame => exact nextMeets_refused _ _

/-- Only a power-on reset starts the record anew; taking a request leaves it as it is. -/
theorem step {s : State} (hreset : s.seq = .idle → s.placed = none → s.inbox.head? ≠ some .hardwareReset) :
    NextMeets (Grows TraceEntry.ToDevice 8 s) (step s) := by
  unfold Machine.step
  split
  · exact runningStep _ _ s
  · next hseq =>
    split
    · exact takeWord _ (s.setPlaced none)
    · next hplaced =>
      split
      · exact refl s
      · next hinbox => exact absurd (congrArg List.head? hinbox) (hreset hseq hplaced)
      · exact takeWord _ (s.setInbox _)

end State.Grows

/-- Settles O52, `State.Grows` being its conclusion. -/
theorem traceOnlyGrows : Obligations.TraceOnlyGrows := by
  intro s t ht hreset
  have h : NextMeets (State.Grows TraceEntry.ToDevice 8 s) (step s) := State.Grows.step hreset
  rwa [ht, nextMeets_next] at h

/-! ### The registers and addresses of the commands (R41, R121, R155) -/

/-- The register a program step stores, if it is a store (R94). -/
def ProgStep.target : ProgStep → Option RegId
  | .store r _ => some r
  | .resetTrigger => none

/-- "`bank[1]`, `bank[3]` and `bank[8]`", which no command stores (R155, R160). -/
def unstoredRegs : List RegId := [.rli, .rhp, .sc]

/-- The frames the commands may send: to one of the eight addresses of R41. -/
def TraceEntry.OfCommand (e : TraceEntry) : Prop :=
  e.device = Config.deviceAddr ∧ e.address ∈ [0x00#8, 0x02#8, 0x04#8, 0x05#8, 0x06#8, 0x07#8, 0x09#8, 0x0F#8]

theorem target_ne_of_mem_program {c : Command} {p : ProgStep} (h : p ∈ program c) :
    ∀ q ∈ unstoredRegs, p.target ≠ some q := by
  cases c <;> simp only [program, programReset, programLineIn, programHeadphone, programMute, List.mem_singleton] at h
  case initializeCodec => revert p; decide
  case reset => subst h; decide
  case setLineInVolume g => subst h; simp [storeLineIn, ProgStep.target, unstoredRegs]
  case setHeadphoneVolume g => subst h; simp [storeHeadphone, ProgStep.target, unstoredRegs]
  case headphoneMute => subst h; decide

theorem addr_mem_of_notMem_unstoredRegs {r : RegId} (h : r ∉ unstoredRegs) :
    addr r ∈ [0x00#8, 0x02#8, 0x04#8, 0x05#8, 0x06#8, 0x07#8, 0x09#8, 0x0F#8] := by
  revert h
  cases r <;> decide

theorem sends_ofCommand_of_mem_program {c : Command} {p : ProgStep} (h : p ∈ program c) : p.Sends TraceEntry.OfCommand := by
  refine fun b a => ⟨rfl, ?_⟩
  cases p with
  | resetTrigger => simp [ProgStep.frame]
  | store r fv => exact addr_mem_of_notMem_unstoredRegs fun hr => target_ne_of_mem_program h r hr rfl

theorem performStep_bank_get {p : ProgStep} {q : RegId} (h : p.target ≠ some q) (s : State) :
    (performStep p s).1.bank.get q = s.bank.get q := by
  cases p with
  | resetTrigger => rfl
  | store r fv =>
    have hne : q ≠ r := fun hq => h (congrArg some hq.symm)
    cases hf : fieldsFit (layout r) fv
    · rw [performStep, store_of_not_fits hf]
    · rw [performStep, store_of_fits hf]
      exact RegFile.get_set_of_ne _ _ hne

/-- A register that no step stores keeps its word. -/
theorem runSteps_bank_get {ps : List ProgStep} {q : RegId} (h : ∀ p ∈ ps, p.target ≠ some q) (c : Command) (k : Nat)
    (s : State) : (runSteps c ps k s).bank.get q = s.bank.get q := by
  induction ps generalizing k s with
  | nil => rfl
  | cons p rest ih =>
    obtain ⟨hp, hrest⟩ := List.forall_mem_cons.mp h
    have hstep : (seqStep c k p s).bank.get q = s.bank.get q := by
      rw [seqStep_bank, performStep_bank_get hp]
    simp only [runSteps]
    split
    · exact hstep
    · exact (ih hrest _ _).trans hstep

/-- Settles O46, from the targets of the program steps. -/
theorem commandsWriteOnlyTheirAddresses : Obligations.CommandsWriteOnlyTheirAddresses := by
  intro c s hidle
  have hgrows : State.Grows TraceEntry.OfCommand 8 s (runSteps c (program c) 1 (accept c s)) :=
    State.Grows.runSteps_program (s := accept c s) (fun _ hp => sends_ofCommand_of_mem_program hp) 1
  have hbank : ∀ q ∈ unstoredRegs, (runSteps c (program c) 1 (accept c s)).bank.get q = s.bank.get q := fun q hq =>
    runSteps_bank_get (fun _ hp => target_ne_of_mem_program hp q hq) c 1 (accept c s)
  obtain ⟨⟨fs, htrace, -, hfs⟩, -, -⟩ := hgrows
  exact ⟨_, fs, (exec_of_command c s).trans (runCommand_of_idle hidle), htrace, hfs,
    hbank .rli (by decide), hbank .rhp (by decide), hbank .sc (by decide)⟩

end Sys2Proof.Machine

/-! PROOFS. The encoding (30_encoding.md): `Spells` is the table of R59 to R61 and R67 as a relation between raw words and instructions;
the decoder computes it from the word's side and the encoder from the instruction's. The register codec (R64) and the frames' bits
(R61) come with it. -/

namespace Sys2Proof.Machine

/-! ### The register codec (R62 to R64) -/

theorem fieldOf_le_fieldLimit (f : Field) (w : Word) : fieldOf f w ≤ fieldLimit f := by
  rw [fieldOf, BitVec.le_def, BitVec.toNat_and]
  exact Nat.and_le_right

/-- A field put back where it was read is the word cut to the field. -/
theorem placed_fieldOf (f : Field) (w : Word) :
    (fieldOf f w &&& fieldLimit f) <<< f.lo = w &&& (fieldLimit f &&& fieldLimit f) <<< f.lo := by
  apply BitVec.eq_of_getLsbD_eq
  intro i hi
  rw [BitVec.getLsbD_and, getLsbD_placed, getLsbD_placed, getLsbD_fieldOf, getLsbD_fieldLimit]
  by_cases hlo : f.lo ≤ i
  · have hadd : f.lo + (i - f.lo) = i := by omega
    have hlt : i - f.lo < f.width ↔ i < f.lo + f.width := by omega
    have h16 : i - f.lo < 16 := by omega
    simp only [hadd, hlt, hi, hlo, h16, decide_true, Bool.true_and]
    cases decide (i < f.lo + f.width) <;> simp
  · simp [hlo]

/-- Packing the unpacked word masks it (R64). -/
theorem packFields_unpackFields (fs : List Field) (w : Word) : packFields fs (unpackFields fs w) = w &&& maskFields fs := by
  induction fs with
  | nil => simp [maskFields, packFields]
  | cons f fs ih =>
    calc packFields (f :: fs) (unpackFields (f :: fs) w)
        = (fieldOf f w &&& fieldLimit f) <<< f.lo ||| packFields fs (unpackFields fs w) := rfl
      _ = w &&& (fieldLimit f &&& fieldLimit f) <<< f.lo ||| w &&& maskFields fs := by rw [placed_fieldOf, ih]
      _ = w &&& maskFields (f :: fs) := (BitVec.and_or_distrib_left ..).symm

theorem fieldsFit_cons {f : Field} {fs : List Field} {v : FieldValue} {vs : List FieldValue} :
    fieldsFit (f :: fs) (v :: vs) = true ↔ v ≤ fieldLimit f ∧ fieldsFit fs vs = true := by
  rw [fieldsFit, Bool.and_eq_true, decide_eq_true_eq]

/-- Unpacked values always fit (R63). -/
theorem fieldsFit_unpackFields (fs : List Field) (w : Word) : fieldsFit fs (unpackFields fs w) = true := by
  induction fs with
  | nil => rfl
  | cons f fs ih => exact fieldsFit_cons.mpr ⟨fieldOf_le_fieldLimit f w, ih⟩

/-- Settles O5: field by field, what is packed again is the word under the mask. -/
theorem packOfUnpackMasksReservedBits : Obligations.PackOfUnpackMasksReservedBits :=
  ⟨fun r w => ⟨packFields_unpackFields (layout r) w, fieldsFit_unpackFields (layout r) w⟩, pack_and_not_mask, by decide⟩

/-! ### Words split into their fields and put together from them (R59 to R61) -/

section ThreeParts

variable {a b c : Nat}

theorem extractLsb'_append_high (x : BitVec a) (y : BitVec b) (z : BitVec c) : (x ++ y ++ z).extractLsb' (b + c) a = x := by
  rw [BitVec.extractLsb'_append_eq_of_le (by omega), Nat.add_sub_cancel, BitVec.extractLsb'_append_eq_left]

theorem extractLsb'_append_middle (x : BitVec a) (y : BitVec b) (z : BitVec c) : (x ++ y ++ z).extractLsb' c b = y := by
  rw [BitVec.extractLsb'_append_eq_of_le le_rfl, Nat.sub_self, BitVec.extractLsb'_append_eq_right]

theorem append_extractLsb'_three (w : BitVec (a + b + c)) :
    w.extractLsb' (b + c) a ++ w.extractLsb' c b ++ w.extractLsb' 0 c = w := by
  rw [BitVec.extractLsb'_append_extractLsb'_eq_extractLsb' (Nat.add_comm b c), BitVec.extractLsb'_append_extractLsb']

end ThreeParts

@[simp] theorem opField_commandWord (op : BitVec 4) (g : BitVec 16) : opField (commandWord op g) = op :=
  extractLsb'_append_high op 0#12 g

@[simp] theorem zeroField_commandWord (op : BitVec 4) (g : BitVec 16) : zeroField (commandWord op g) = 0#12 :=
  extractLsb'_append_middle op 0#12 g

@[simp] theorem argField_commandWord (op : BitVec 4) (g : BitVec 16) : argField (commandWord op g) = g :=
  BitVec.extractLsb'_append_eq_right

theorem commandWord_fields {w : BitVec 32} (h : zeroField w = 0#12) : commandWord (opField w) (argField w) = w := by
  rw [commandWord, ← h]
  exact append_extractLsb'_three (a := 4) (b := 12) (c := 16) w

@[simp] theorem opField_uopWord (op : BitVec 4) (r : RegId) : opField (uopWord op r) = op :=
  extractLsb'_append_high op 0#24 (regIndex r)

@[simp] theorem uopZeroField_uopWord (op : BitVec 4) (r : RegId) : uopZeroField (uopWord op r) = 0#24 :=
  extractLsb'_append_middle op 0#24 (regIndex r)

@[simp] theorem regField_uopWord (op : BitVec 4) (r : RegId) : regField (uopWord op r) = regIndex r :=
  BitVec.extractLsb'_append_eq_right

theorem uopWord_fields {w : BitVec 32} {r : RegId} (hzero : uopZeroField w = 0#24) (hreg : regIndex r = regField w) :
    uopWord (opField w) r = w := by
  rw [uopWord, ← hzero, hreg]
  exact append_extractLsb'_three (a := 4) (b := 24) (c := 4) w

@[simp] theorem opField_rawWord (a : Byte) (v : Word) : opField (rawWord a v) = 0xB#4 :=
  (BitVec.extractLsb'_append_eq_of_le (by decide)).trans (extractLsb'_append_high 0xB#4 0#4 a)

@[simp] theorem rawZeroField_rawWord (a : Byte) (v : Word) : rawZeroField (rawWord a v) = 0#4 :=
  (BitVec.extractLsb'_append_eq_of_le (by decide)).trans (extractLsb'_append_middle 0xB#4 0#4 a)

@[simp] theorem rawAddrField_rawWord (a : Byte) (v : Word) : rawAddrField (rawWord a v) = a :=
  extractLsb'_append_middle (0xB#4 ++ 0#4) a v

@[simp] theorem argField_rawWord (a : Byte) (v : Word) : argField (rawWord a v) = v :=
  BitVec.extractLsb'_append_eq_right

theorem rawWord_fields {w : BitVec 32} (hop : opField w = 0xB#4) (hzero : rawZeroField w = 0#4) :
    rawWord (rawAddrField w) (argField w) = w := by
  have htop : opField w ++ rawZeroField w = w.extractLsb' 24 8 := BitVec.extractLsb'_append_extractLsb'_eq_extractLsb' rfl
  rw [rawWord, ← hop, ← hzero, htop]
  exact append_extractLsb'_three (a := 8) (b := 8) (c := 16) w

@[simp] theorem frameAddr_frameWord (a : Byte) (v : Word) : frameAddr (frameWord a v) = a :=
  BitVec.extractLsb'_append_eq_left

@[simp] theorem frameValue_frameWord (a : Byte) (v : Word) : frameValue (frameWord a v) = v :=
  BitVec.extractLsb'_append_eq_right

theorem frameWord_fields (f : BitVec 24) : frameWord (frameAddr f) (frameValue f) = f :=
  BitVec.extractLsb'_append_extractLsb'

theorem regOfIndex_eq_some {i : BitVec 4} {r : RegId} (h : regOfIndex i = some r) : regIndex r = i := by
  rw [regIndex, addr_of_regAt h]
  simp

/-! ### The encoding as a relation -/

/-- The word of a command (R59, R67). -/
def Command.word : Command → BitVec 32
  | .initializeCodec => commandWord 0x1#4 0#16
  | .reset => commandWord 0x2#4 0#16
  | .setLineInVolume g => commandWord 0x3#4 g
  | .setHeadphoneVolume g => commandWord 0x4#4 g
  | .headphoneMute => commandWord 0x5#4 0#16

/-- `Spells e i`: the raw word `e` is one of R59 to R61 and R67, and `i` is what it stands for (decision D3). The words of a register
are one row each: the ten variants of SET_STRUCTURED and the ten register frames differ only in the register and its fields. -/
inductive Spells : Encoded → Instr → Prop where
  | command (c : Command) : Spells (.command c.word) c.instr
  | get (r : RegId) : Spells (.microOp (uopWord 0x8#4 r) []) (.get r)
  | structured {r : RegId} {fv : List FieldValue} {i : Instr} (hi : structuredInstr r fv = some i) :
      Spells (.microOp (uopWord 0x9#4 r) fv) i
  | writeReg (r : RegId) : Spells (.microOp (uopWord 0xA#4 r) []) (.writeReg r)
  | writeRaw (a : Byte) (v : Word) : Spells (.microOp (rawWord a v) []) (.writeRaw a v)
  | registerFrame {r : RegId} {fv : List FieldValue} {i : Instr} (hi : frameInstr r fv = some i)
      (hfit : fieldsFit (layout r) fv = true) : Spells (.busFrame (frameWord (addr r) (pack r fv))) i
  | resetFrame {c : FieldValue} (hfit : fieldsFit resetLayout [c] = true) :
      Spells (.busFrame (frameWord resetAddr (packFields resetLayout [c]))) (.frameRst c)

/-! ### The encoder -/

theorem encode_of_structuredInstr {r : RegId} {fv : List FieldValue} {i : Instr} (h : structuredInstr r fv = some i) :
    encode i = encodeStructured r fv := by
  unfold structuredInstr at h
  split at h <;> cases h <;> rfl

/-- SET_STRUCTURED is well formed whether its fields fit or not (R66, R77). -/
theorem wellFormed_of_structuredInstr {r : RegId} {fv : List FieldValue} {i : Instr} (h : structuredInstr r fv = some i) :
    i.wellFormed = true := by
  unfold structuredInstr at h
  split at h <;> cases h <;> rfl

/-- A register's frame carries its packed word (R61). -/
theorem encode_of_frameInstr {r : RegId} {fv : List FieldValue} {i : Instr} (h : frameInstr r fv = some i) :
    encode i = encodeFrame r fv := by
  unfold frameInstr at h
  split at h <;> cases h <;> rfl

/-- A register's frame is well formed exactly when its fields fit. -/
theorem wellFormed_of_frameInstr {r : RegId} {fv : List FieldValue} {i : Instr} (h : frameInstr r fv = some i) :
    i.wellFormed = fieldsFit (layout r) fv := by
  unfold frameInstr at h
  split at h <;> cases h <;> rfl

/-- The encoder writes what spells the instruction. -/
theorem spells_encode {i : Instr} (hwf : i.wellFormed = true) : Spells (encode i) i := by
  cases i with
  | initializeCodec => exact .command .initializeCodec
  | reset => exact .command .reset
  | setLineInVolume g => exact .command (.setLineInVolume g)
  | setHeadphoneVolume g => exact .command (.setHeadphoneVolume g)
  | headphoneMute => exact .command .headphoneMute
  | get r => exact .get r
  | setStructuredLli | setStructuredRli | setStructuredLhp | setStructuredRhp | setStructuredAapc | setStructuredDapc
  | setStructuredPdc | setStructuredDaif | setStructuredSc | setStructuredAc => exact .structured rfl
  | writeReg r => exact .writeReg r
  | writeRaw a v => exact .writeRaw a v
  | frameLli | frameRli | frameLhp | frameRhp | frameAapc | frameDapc | framePdc | frameDaif | frameSc | frameAc =>
    exact .registerFrame rfl hwf
  | frameRst c => exact .resetFrame hwf

theorem Spells.encode_eq_and_wellFormed {e : Encoded} {i : Instr} (h : Spells e i) : encode i = e ∧ i.wellFormed = true := by
  cases h with
  | command c => cases c <;> exact ⟨rfl, rfl⟩
  | get r | writeReg r | writeRaw a v => exact ⟨rfl, rfl⟩
  | structured hi => exact ⟨encode_of_structuredInstr hi, wellFormed_of_structuredInstr hi⟩
  | registerFrame hi hfit => exact ⟨encode_of_frameInstr hi, (wellFormed_of_frameInstr hi).trans hfit⟩
  | resetFrame hfit => exact ⟨rfl, hfit⟩

/-! ### The decoder -/

theorem decodeNoArg_eq_ok {i j : Instr} {w : BitVec 32} : decodeNoArg i w = .ok j ↔ argField w = 0#16 ∧ i = j := by
  unfold decodeNoArg
  split <;> simp [*]

theorem decodeNoOperands_eq_ok {i j : Instr} {fv : List FieldValue} : decodeNoOperands i fv = .ok j ↔ fv = [] ∧ i = j := by
  unfold decodeNoOperands
  split <;> simp [*]

/-- A word that names a register is decoded by the register it names. -/
@[simp] theorem decodeReg_uopWord (op : BitVec 4) (r : RegId) (make : RegId → Except DecodeError Instr) :
    decodeReg (uopWord op r) make = make r := by
  simp [decodeReg, regOfIndex_regIndex]

theorem exists_uopWord_of_decodeReg {w : BitVec 32} {make : RegId → Except DecodeError Instr} {i : Instr}
    (h : decodeReg w make = .ok i) : ∃ r, uopWord (opField w) r = w ∧ make r = .ok i := by
  unfold decodeReg at h
  split at h
  · cases h
  · next hzero =>
    split at h
    · cases h
    · next r hr => exact ⟨r, uopWord_fields (not_not.mp hzero) (regOfIndex_eq_some hr), h⟩

theorem and_not_eq_zero_iff {n : Nat} {v m : BitVec n} : v &&& ~~~m = 0#n ↔ v &&& m = v := by
  constructor
  · intro h
    calc v &&& m = v &&& m ||| v &&& ~~~m := by rw [h, BitVec.or_zero]
      _ = v := by rw [← BitVec.and_or_distrib_left, BitVec.or_not_self, BitVec.and_allOnes]
  · intro h
    rw [← h, BitVec.and_assoc, BitVec.and_not_self]
    exact BitVec.and_zero

/-- Over disjoint fields in ascending order, a frame's value decodes exactly when it is a packed tuple that fits (R61, R70). -/
theorem decodeFields_eq_ok {fs : List Field} (hdisjoint : fs.Pairwise (fun f g => f.lo + f.width ≤ g.lo))
    (htop : ∀ f ∈ fs, f.lo + f.width ≤ 16) {v : Word} {make : List FieldValue → Option Instr} {i : Instr} :
    decodeFields fs v make = .ok i ↔ ∃ fv, make fv = some i ∧ fieldsFit fs fv = true ∧ packFields fs fv = v := by
  simp only [decodeFields, ne_eq, and_not_eq_zero_iff, ← packFields_unpackFields, ite_not]
  constructor
  · intro h
    split at h
    · next hpacked =>
      split at h
      · next j hj =>
        cases h
        exact ⟨_, hj, fieldsFit_unpackFields fs v, hpacked⟩
      · cases h
    · cases h
  · rintro ⟨fv, hmake, hfit, rfl⟩
    simp only [unpackFields_packFields hfit hdisjoint htop, hmake, if_true]

theorem decodeFields_layout_eq_ok {r : RegId} {v : Word} {i : Instr} :
    decodeFields (layout r) v (frameInstr r) = .ok i ↔
      ∃ fv, frameInstr r fv = some i ∧ fieldsFit (layout r) fv = true ∧ pack r fv = v :=
  decodeFields_eq_ok (layout_pairwise r) fun f hf => (layout_top_le r f hf).trans (by decide)

theorem decodeFields_resetLayout_eq_ok {v : Word} {i : Instr} :
    decodeFields resetLayout v resetFrame = .ok i ↔
      ∃ fv, resetFrame fv = some i ∧ fieldsFit resetLayout fv = true ∧ packFields resetLayout fv = v :=
  decodeFields_eq_ok (by decide) (by decide)

theorem spells_of_decodeNoArg {c : Command} {w : BitVec 32} {i : Instr} (hc : c.word = commandWord (opField w) 0#16)
    (h : decodeNoArg c.instr w = .ok i) : Spells (.command (commandWord (opField w) (argField w))) i := by
  obtain ⟨harg, rfl⟩ := decodeNoArg_eq_ok.mp h
  rw [harg, ← hc]
  exact .command c

theorem spells_of_decodeCommand {w : BitVec 32} {i : Instr} (h : decodeCommand w = .ok i) : Spells (.command w) i := by
  unfold decodeCommand at h
  split_ifs at h with _ hzero h1 h2 h3 h4 h5
  all_goals rw [← commandWord_fields (not_not.mp hzero)]
  · exact spells_of_decodeNoArg (c := .initializeCodec) (by rw [h1, Command.word]) h
  · exact spells_of_decodeNoArg (c := .reset) (by rw [h2, Command.word]) h
  · cases h
    rw [h3]
    exact .command (.setLineInVolume (argField w))
  · cases h
    rw [h4]
    exact .command (.setHeadphoneVolume (argField w))
  · exact spells_of_decodeNoArg (c := .headphoneMute) (by rw [h5, Command.word]) h

theorem spells_of_decodeMicroOp {w : BitVec 32} {fv : List FieldValue} {i : Instr} (h : decodeMicroOp w fv = .ok i) :
    Spells (.microOp w fv) i := by
  unfold decodeMicroOp at h
  split_ifs at h with h8 h9 hA hB hzero
  · obtain ⟨r, hw, hmake⟩ := exists_uopWord_of_decodeReg h
    obtain ⟨rfl, rfl⟩ := decodeNoOperands_eq_ok.mp hmake
    rw [← hw, h8]
    exact .get r
  · obtain ⟨r, hw, hmake⟩ := exists_uopWord_of_decodeReg h
    split at hmake
    · next hi =>
      cases hmake
      rw [← hw, h9]
      exact .structured hi
    · cases hmake
  · obtain ⟨r, hw, hmake⟩ := exists_uopWord_of_decodeReg h
    obtain ⟨rfl, rfl⟩ := decodeNoOperands_eq_ok.mp hmake
    rw [← hw, hA]
    exact .writeReg r
  · obtain ⟨rfl, rfl⟩ := decodeNoOperands_eq_ok.mp h
    rw [← rawWord_fields hB (not_not.mp hzero)]
    simpa using Spells.writeRaw (rawAddrField w) (argField w)

theorem spells_of_decodeFrame {f : BitVec 24} {i : Instr} (h : decodeFrame f = .ok i) : Spells (.busFrame f) i := by
  unfold decodeFrame at h
  rw [← frameWord_fields f]
  split at h
  · next ha =>
    obtain ⟨fv, hmake, hfit, hv⟩ := decodeFields_resetLayout_eq_ok.mp h
    rw [ha, ← hv]
    unfold resetFrame at hmake
    split at hmake <;> cases hmake
    exact .resetFrame hfit
  · split at h
    · cases h
    · next r hr =>
      obtain ⟨fv, hmake, hfit, hv⟩ := decodeFields_layout_eq_ok.mp h
      rw [← addr_of_regAt hr, ← hv]
      exact .registerFrame hmake hfit

/-- The decoder reads nothing but what spells an instruction. -/
theorem spells_of_decode {e : Encoded} {i : Instr} (h : decode e = .ok i) : Spells e i := by
  cases e with
  | command w => exact spells_of_decodeCommand h
  | microOp w fv => exact spells_of_decodeMicroOp h
  | busFrame f => exact spells_of_decodeFrame h

/-- The decoder reads everything that spells an instruction. -/
theorem Spells.decode_eq {e : Encoded} {i : Instr} (h : Spells e i) : decode e = .ok i := by
  cases h with
  | command c => cases c <;> simp [decode, decodeCommand, decodeNoArg, Command.word, Command.instr]
  | get r | writeReg r | writeRaw a v => simp [decode, decodeMicroOp, decodeNoOperands]
  | structured hi => simp [decode, decodeMicroOp, hi]
  | registerFrame hi hfit =>
    simp only [decode, decodeFrame, frameAddr_frameWord, frameValue_frameWord, if_neg (addr_ne_resetAddr _), regAt_addr]
    exact decodeFields_layout_eq_ok.mpr ⟨_, hi, hfit, rfl⟩
  | resetFrame hfit =>
    simp only [decode, decodeFrame, frameAddr_frameWord, frameValue_frameWord, if_true]
    exact decodeFields_resetLayout_eq_ok.mpr ⟨_, rfl, hfit, rfl⟩

/-- Settles O53: what the encoder writes, the relation `Spells` holds of, and what spells an instruction decodes to it. -/
theorem decodeInvertsEncode : Obligations.DecodeInvertsEncode := fun _ hwf => (spells_encode hwf).decode_eq

/-- Settles O54: what decodes spells the instruction, and what spells it is its encoding. -/
theorem encodeInvertsDecode : Obligations.EncodeInvertsDecode := fun _ _ h => (spells_of_decode h).encode_eq_and_wellFormed

/-- Settles O55: each word is closed. -/
theorem writtenOutWordsDecode : Obligations.WrittenOutWordsDecode := by
  unfold Obligations.WrittenOutWordsDecode
  decide

/-! ### The command port's words (R67 to R69) -/

theorem decode_command_eq_ok {w : BitVec 32} {i : Instr} :
    decode (.command w) = .ok i ↔ ∃ c : Command, c.word = w ∧ c.instr = i := by
  constructor
  · intro h
    cases spells_of_decode h with
    | command c => exact ⟨c, rfl, rfl⟩
  · rintro ⟨c, rfl, rfl⟩
    exact (Spells.command c).decode_eq

/-- A command with a gain is told by the upper half of its word, and its gain is the lower half (R68). -/
theorem and_upperMask_eq_iff {op : BitVec 4} {w : BitVec 32} :
    w &&& 0xFFFF0000#32 = commandWord op 0#16 ↔ commandWord op (argField w) = w := by
  have hw : w.extractLsb' 16 16 ++ argField w = w := BitVec.extractLsb'_append_extractLsb'
  have hmask : w &&& 0xFFFF0000#32 = w.extractLsb' 16 16 ++ 0#16 := by
    conv_lhs => rw [← hw]
    exact Laws.TableRow.and_high _ _ _ _ (by decide) rfl
  calc w &&& 0xFFFF0000#32 = commandWord op 0#16
      ↔ w.extractLsb' 16 16 ++ 0#16 = op ++ 0#12 ++ 0#16 := by rw [hmask]; rfl
    _ ↔ w.extractLsb' 16 16 = op ++ 0#12 := BitVec.append_left_inj 0#16
    _ ↔ w.extractLsb' 16 16 ++ argField w = op ++ 0#12 ++ argField w := (BitVec.append_left_inj (argField w)).symm
    _ ↔ commandWord op (argField w) = w := by rw [hw]; exact eq_comm

/-- The rows of R68's table, one for each command. -/
theorem decode_command_eq_ok_iff_row {w : BitVec 32} {i : Instr} :
    decode (.command w) = .ok i ↔
      (i = .initializeCodec ∧ w = 0x10000000#32) ∨ (i = .reset ∧ w = 0x20000000#32) ∨
      (i = .setLineInVolume (argField w) ∧ w &&& 0xFFFF0000#32 = 0x30000000#32) ∨
      (i = .setHeadphoneVolume (argField w) ∧ w &&& 0xFFFF0000#32 = 0x40000000#32) ∨
      (i = .headphoneMute ∧ w = 0x50000000#32) := by
  have hgain (op : BitVec 4) (g : Gain) : commandWord op g &&& 0xFFFF0000#32 = commandWord op 0#16 :=
    and_upperMask_eq_iff.mpr (by rw [argField_commandWord])
  rw [decode_command_eq_ok]
  constructor
  · rintro ⟨c, rfl, rfl⟩
    cases c with
    | initializeCodec => exact .inl ⟨rfl, rfl⟩
    | reset => exact .inr (.inl ⟨rfl, rfl⟩)
    | setLineInVolume g =>
      exact .inr (.inr (.inl ⟨congrArg _ (argField_commandWord _ g).symm, hgain 0x3#4 g⟩))
    | setHeadphoneVolume g =>
      exact .inr (.inr (.inr (.inl ⟨congrArg _ (argField_commandWord _ g).symm, hgain 0x4#4 g⟩)))
    | headphoneMute => exact .inr (.inr (.inr (.inr ⟨rfl, rfl⟩)))
  · rintro (⟨rfl, rfl⟩ | ⟨rfl, rfl⟩ | ⟨rfl, hw⟩ | ⟨rfl, hw⟩ | ⟨rfl, rfl⟩)
    · exact ⟨.initializeCodec, rfl, rfl⟩
    · exact ⟨.reset, rfl, rfl⟩
    · exact ⟨.setLineInVolume _, and_upperMask_eq_iff.mp hw, rfl⟩
    · exact ⟨.setHeadphoneVolume _, and_upperMask_eq_iff.mp hw, rfl⟩
    · exact ⟨.headphoneMute, rfl, rfl⟩

theorem legalCommandWord_iff_decodes {w : BitVec 32} : legalCommandWord w = true ↔ ∃ i, decode (.command w) = .ok i := by
  simp only [decode_command_eq_ok_iff_row, exists_or, exists_and_right, exists_eq, true_and]
  simp [legalCommandWord, or_assoc]

/-- Settles O28: the decoder's commands are the rows of the table. -/
theorem commandWordsDecodeByMatchAndMask : Obligations.CommandWordsDecodeByMatchAndMask :=
  ⟨fun _ => legalCommandWord_iff_decodes, fun _ _ => decode_command_eq_ok_iff_row⟩

theorem step_of_command {s : State} {w : BitVec 32} {rest : List Request} (hseq : s.seq = .idle) (hplaced : s.placed = none)
    (hinbox : s.inbox = .command w :: rest) : step s = takeWord (.command w) (s.setInbox rest) := by
  simp only [step, hseq, hplaced, hinbox]

/-- A word that meets no row is answered IllegalCommand (R69, R126). -/
theorem takeWord_of_not_legal {w : BitVec 32} (h : legalCommandWord w = false) (s : State) :
    takeWord (.command w) s = .next (s.endCommand .illegalCommand) := by
  unfold takeWord
  split
  · next i hi => exact absurd (legalCommandWord_iff_decodes.mpr ⟨i, hi⟩) (Bool.eq_false_iff.mp h)
  · rfl

/-- Settles O29: the word is taken, no decoding of it exists, and the sequencer was Idle already. -/
theorem illegalCommandChangesNothing : Obligations.IllegalCommandChangesNothing := by
  intro s w rest hseq hplaced hinbox hillegal
  rw [step_of_command hseq hplaced hinbox, takeWord_of_not_legal hillegal, State.endCommand, ← hseq]
  rfl

/-! ### The frames (R42, R61) -/

/-- An instruction whose encoding is a frame is the bus write of the frame's own address and value (R42, R43). -/
theorem exec_of_busFrame {i : Instr} {f : BitVec 24} (h : encode i = .busFrame f) (hwf : i.wellFormed = true) (s : State) :
    exec i s = .next (s.busWrite (frameAddr f) (frameValue f)) := by
  have hspells : Spells (.busFrame f) i := h ▸ spells_encode hwf
  cases hspells with
  | registerFrame hi hfit => rw [exec_of_frameInstr hi, frameAddr_frameWord, frameValue_frameWord]
  | resetFrame hfit => rw [frameAddr_frameWord, frameValue_frameWord]; rfl

/-- Settles O20: what encodes to a frame is one of the two frame rows of `Spells`, and each is one bus write. -/
theorem frameIsOneBusWrite : Obligations.FrameIsOneBusWrite := fun _ _ s h hwf =>
  ⟨_, exec_of_busFrame h hwf s, rfl, rfl, rfl, rfl, rfl, rfl, rfl⟩


/-- The pattern of a frame: each value moved to its field's lowest bit and joined to what is there (R61). -/
def joinFields : BitVec 24 → List Field → List FieldValue → BitVec 24
  | acc, f :: fs, v :: vs => joinFields (acc ||| v.setWidth 24 <<< f.lo) fs vs
  | acc, _, _ => acc

/-- A value that fits is placed uncut, and moving it within 16 bits loses nothing. -/
theorem setWidth_placed {f : Field} {v : FieldValue} (hv : v ≤ fieldLimit f) (htop : f.lo + f.width ≤ 16) :
    ((v &&& fieldLimit f) <<< f.lo).setWidth 24 = v.setWidth 24 <<< f.lo := by
  apply BitVec.eq_of_getLsbD_eq
  intro i hi
  rw [BitVec.getLsbD_setWidth, getLsbD_placed, BitVec.getLsbD_shiftLeft, BitVec.getLsbD_setWidth]
  by_cases hin : i < f.lo + f.width
  · have h16 : i < 16 := by omega
    have hsub : i - f.lo < 24 := by omega
    have hlo : decide (f.lo ≤ i) = !decide (i < f.lo) := by rw [← decide_not, decide_eq_decide, Nat.not_lt]
    simp [hi, hin, h16, hsub, hlo]
  · have hv0 : v.getLsbD (i - f.lo) = false := getLsbD_of_le_fieldLimit hv (by omega)
    simp [hv0]

theorem joinFields_eq {fs : List Field} {fv : List FieldValue} (hfit : fieldsFit fs fv = true)
    (htop : ∀ f ∈ fs, f.lo + f.width ≤ 16) (acc : BitVec 24) : joinFields acc fs fv = acc ||| (packFields fs fv).setWidth 24 := by
  induction fs generalizing fv acc with
  | nil => cases fv <;> simp [joinFields, packFields]
  | cons f fs ih =>
    cases fv with
    | nil => simp [fieldsFit] at hfit
    | cons v vs =>
      obtain ⟨hftop, hfstop⟩ := List.forall_mem_cons.mp htop
      obtain ⟨hv, hvs⟩ := fieldsFit_cons.mp hfit
      rw [joinFields, ih hvs hfstop, packFields, BitVec.setWidth_or, setWidth_placed hv hftop, BitVec.or_assoc]

theorem frameWord_packFields {fs : List Field} {fv : List FieldValue} (hfit : fieldsFit fs fv = true)
    (htop : ∀ f ∈ fs, f.lo + f.width ≤ 16) (a : Byte) :
    frameWord a (packFields fs fv) = joinFields (frameWord a 0#16) fs fv := by
  have hset : (packFields fs fv).setWidth 24 = 0#8 ++ packFields fs fv := BitVec.setWidth_eq_append (by decide)
  rw [joinFields_eq hfit htop, hset, frameWord, frameWord, BitVec.or_append, BitVec.or_zero, BitVec.zero_or]

/-- A register's frame whose fields fit has the bits of its pattern. -/
theorem encode_registerFrame (r : RegId) (fv : List FieldValue) {i : Instr} (hi : frameInstr r fv = some i)
    (hfit : fieldsFit (layout r) fv = true) {f : BitVec 24} (hf : joinFields (frameWord (addr r) 0#16) (layout r) fv = f) :
    encode i = .busFrame f := by
  rw [encode_of_frameInstr hi, encodeFrame, pack, frameWord_packFields hfit, hf]
  exact fun f hf => (layout_top_le r f hf).trans (by decide)

/-- Settles O21: every frame is its address joined with its fields at their places. -/
theorem frameWordsFollowPatterns : Obligations.FrameWordsFollowPatterns := by
  refine ⟨fun r fv i hi => encode_of_frameInstr hi, fun b => rfl, ?lineIn, ?headphone, ?aapc, ?dapc, ?pdc, ?daif, ?sc, ?ac,
    ?rst⟩
  case lineIn =>
    intro v m b hv hm hb
    have hfit : fieldsFit (layout .lli) [v, m, b] = true := by simp [fieldsFit, layout, fieldLimit, hv, hm, hb]
    exact ⟨encode_registerFrame .lli [v, m, b] rfl hfit (by simp [joinFields, layout, frameWord, addr]),
      encode_registerFrame .rli [v, m, b] rfl hfit (by simp [joinFields, layout, frameWord, addr])⟩
  case headphone =>
    intro v z b hv hz hb
    have hfit : fieldsFit (layout .lhp) [v, z, b] = true := by simp [fieldsFit, layout, fieldLimit, hv, hz, hb]
    exact ⟨encode_registerFrame .lhp [v, z, b] rfl hfit (by simp [joinFields, layout, frameWord, addr]),
      encode_registerFrame .rhp [v, z, b] rfl hfit (by simp [joinFields, layout, frameWord, addr])⟩
  case aapc =>
    intro b m i y d n a hb hm hi hy hd hn ha
    exact encode_registerFrame .aapc [b, m, i, y, d, n, a] rfl
      (by simp [fieldsFit, layout, fieldLimit, *]) (by simp [joinFields, layout, frameWord, addr])
  case dapc =>
    intro a e m h ha he hm hh
    exact encode_registerFrame .dapc [a, e, m, h] rfl
      (by simp [fieldsFit, layout, fieldLimit, *]) (by simp [joinFields, layout, frameWord, addr])
  case pdc =>
    intro l m a d u o c p hl hm ha hd hu ho hc hp
    exact encode_registerFrame .pdc [l, m, a, d, u, o, c, p] rfl
      (by simp [fieldsFit, layout, fieldLimit, *]) (by simp [joinFields, layout, frameWord, addr])
  case daif =>
    intro f l p w m b hf hl hp hw hm hb
    exact encode_registerFrame .daif [f, l, p, w, m, b] rfl
      (by simp [fieldsFit, layout, fieldLimit, *]) (by simp [joinFields, layout, frameWord, addr])
  case sc =>
    intro u b r n o hu hb hr hn ho
    exact encode_registerFrame .sc [u, b, r, n, o] rfl
      (by simp [fieldsFit, layout, fieldLimit, *]) (by simp [joinFields, layout, frameWord, addr])
  case ac =>
    intro a ha
    exact encode_registerFrame .ac [a] rfl
      (by simp [fieldsFit, layout, fieldLimit, *]) (by simp [joinFields, layout, frameWord, addr])
  case rst =>
    intro c hc
    have hfit : fieldsFit resetLayout [c] = true := by simp [fieldsFit, resetLayout, fieldLimit, hc]
    refine congrArg Encoded.busFrame ((frameWord_packFields hfit (by decide) resetAddr).trans ?_)
    simp [joinFields, resetLayout, frameWord, resetAddr]

end Sys2Proof.Machine

/-! PROOFS. The bank operations (40_bank_ops.md R75 to R88): GET and the ten variants of SET_STRUCTURED as exact next states, the
word of each variant written out from its fields, and the one status of a command. -/

namespace Sys2Proof.Machine

/-! ### The word of SET_STRUCTURED (R78 to R85) -/

/-- Values joined to a word uncut, each shifted to its field's lowest bit. -/
def orFields : Word → List Field → List FieldValue → Word
  | acc, f :: fs, v :: vs => orFields (acc ||| v <<< f.lo) fs vs
  | acc, _, _ => acc

/-- The word as R78 to R85 write it: the first value stands at bit 0, every other one is shifted and joined to it. -/
def structuredWord (r : RegId) : List FieldValue → Word
  | v :: vs => orFields v (layout r).tail vs
  | [] => 0#16

theorem and_fieldLimit_of_le {f : Field} {v : FieldValue} (h : v ≤ fieldLimit f) : v &&& fieldLimit f = v := by
  apply BitVec.eq_of_getLsbD_eq
  intro i hi
  rw [BitVec.getLsbD_and, getLsbD_fieldLimit]
  by_cases hw : i < f.width
  · simp [hi, hw]
  · simp [getLsbD_of_le_fieldLimit h (Nat.le_of_not_lt hw)]

/-- For values that fit, the cut of `packFields` changes nothing (R62; log 18). -/
theorem orFields_eq {fs : List Field} {fv : List FieldValue} (hfit : fieldsFit fs fv = true) (acc : Word) :
    orFields acc fs fv = acc ||| packFields fs fv := by
  induction fs generalizing fv acc with
  | nil => cases fv <;> simp [orFields, packFields]
  | cons f fs ih =>
    cases fv with
    | nil => simp [fieldsFit] at hfit
    | cons v vs =>
      obtain ⟨hv, hvs⟩ := fieldsFit_cons.mp hfit
      rw [orFields, ih hvs, packFields, and_fieldLimit_of_le hv, BitVec.or_assoc]

/-- Every register's lowest field is at bit 0 (R19 to R26). -/
theorem layout_eq_cons (r : RegId) : ∃ f fs, layout r = f :: fs ∧ f.lo = 0 := by
  cases r <;> exact ⟨_, _, rfl, rfl⟩

theorem pack_eq_structuredWord {r : RegId} {fv : List FieldValue} (hfit : fieldsFit (layout r) fv = true) :
    pack r fv = structuredWord r fv := by
  obtain ⟨f, fs, hr, hlo⟩ := layout_eq_cons r
  rw [hr] at hfit
  cases fv with
  | nil => simp [fieldsFit] at hfit
  | cons v vs =>
    obtain ⟨hv, hvs⟩ := fieldsFit_cons.mp hfit
    rw [pack, structuredWord, hr, packFields, and_fieldLimit_of_le hv, hlo, BitVec.shiftLeft_zero, List.tail_cons,
      orFields_eq hvs]

/-- The bits that the mask leaves out are 0 in the word. -/
theorem structuredWord_extractLsb' {r : RegId} {fv : List FieldValue} (hfit : fieldsFit (layout r) fv = true) {lo n : Nat}
    (hmask : (mask r).extractLsb' lo n = 0#n) : (structuredWord r fv).extractLsb' lo n = 0#n := by
  apply BitVec.eq_of_getLsbD_eq
  intro i hi
  have hbit : ((mask r).extractLsb' lo n).getLsbD i = false := by rw [hmask, BitVec.getLsbD_zero]
  rw [BitVec.getLsbD_extractLsb', decide_eq_true hi, Bool.true_and] at hbit
  rw [← pack_eq_structuredWord hfit, BitVec.getLsbD_extractLsb', decide_eq_true hi, Bool.true_and, BitVec.getLsbD_zero]
  exact packFields_getLsbD_of_mask (layout r) fv _ hbit

/-! ### Its two outcomes (R77) -/

theorem fieldsFit_nil : fieldsFit [] [] = true := rfl

theorem fieldsFit_cons_eq_false {f : Field} {fs : List Field} {v : FieldValue} {vs : List FieldValue} :
    fieldsFit (f :: fs) (v :: vs) = false ↔ fieldLimit f < v ∨ fieldsFit fs vs = false := by
  rw [fieldsFit, Bool.and_eq_false_iff, decide_eq_false_iff_not, BitVec.not_le]

/-- SET_STRUCTURED with operands that fit: the word is stored and returned, nothing else changes. -/
theorem exec_structured_of_fits {r : RegId} {fv : List FieldValue} {i : Instr} (hi : structuredInstr r fv = some i)
    (hfit : fieldsFit (layout r) fv = true) (s : State) :
    exec i s = .next { s with
      bank := s.bank.set r (structuredWord r fv)
      results := s.results ++ [.word (structuredWord r fv)] } := by
  rw [exec_of_structuredInstr hi, runSetStructured_eq, if_pos hfit, pack_eq_structuredWord hfit]
  rfl

/-- SET_STRUCTURED with an operand that is too wide: only the status is returned (decisions D6 and D18). -/
theorem exec_structured_of_not_fits {r : RegId} {fv : List FieldValue} {i : Instr} (hi : structuredInstr r fv = some i)
    (hfit : fieldsFit (layout r) fv = false) (s : State) :
    exec i s = .next { s with results := s.results ++ [.status .invalidFieldValue] } := by
  rw [exec_of_structuredInstr hi, runSetStructured_eq, if_neg (ne_true_of_eq_false hfit)]
  rfl

/-- Both outcomes as R78 to R85 state them; `lo` and `n` name reserved bits of the register. -/
theorem structured_outcomes (r : RegId) (fv : List FieldValue) (lo n : Nat) (s : State) {i : Instr}
    (hi : structuredInstr r fv = some i) (hmask : (mask r).extractLsb' lo n = 0#n) :
    (fieldsFit (layout r) fv = true → ∃ w : Word, w = structuredWord r fv ∧
      exec i s = .next { s with bank := s.bank.set r w, results := s.results ++ [.word w] } ∧ w.extractLsb' lo n = 0#n) ∧
    (fieldsFit (layout r) fv = false →
      ∃ t, exec i s = .next t ∧ t.results = s.results ++ [.status .invalidFieldValue]) :=
  ⟨fun hfit => ⟨_, rfl, exec_structured_of_fits hi hfit s, structuredWord_extractLsb' hfit hmask⟩,
    fun hfit => ⟨_, exec_structured_of_not_fits hi hfit s, rfl⟩⟩

/-- Settles O15, as the second outcome of SET_STRUCTURED. -/
theorem invalidFieldValueChangesNothing : Obligations.InvalidFieldValueChangesNothing := fun _ _ _ s hi hfit =>
  exec_structured_of_not_fits hi hfit s

/-- Settles O16: GET reads the word just written, and packing is undone by unpacking. -/
theorem setStructuredThenGetReturnsFields : Obligations.SetStructuredThenGetReturnsFields := by
  intro r fv i s hi hfit
  refine ⟨_, _, structuredWord r fv, exec_structured_of_fits hi hfit s, exec_get r _, ?results, ?fields, ?reserved,
    fun q hq => RegFile.get_set_of_ne _ _ hq, rfl, rfl, rfl, rfl, rfl⟩
  case results => simp
  case fields => rw [← pack_eq_structuredWord hfit, unpack_pack hfit]
  case reserved => rw [← pack_eq_structuredWord hfit, pack_and_not_mask]

/-! ### GET (R75) -/

theorem uopWord_get (r : RegId) : uopWord 0x8#4 r = 0x80000000#32 ||| (regIndex r).setWidth 32 := by
  cases r <;> decide

/-- Settles O6: GET is one equation, and its word is the opcode joined with the index. -/
theorem getReturnsBankWord : Obligations.GetReturnsBankWord := fun r s =>
  ⟨exec_get r s, fun h => h r, congrArg (Encoded.microOp · []) (uopWord_get r), rfl⟩

/-! ### The variants, register by register (R78 to R85) -/

/-- Settles O7, the two line-in registers having one layout. -/
theorem setStructuredLineIn : Obligations.SetStructuredLineIn := by
  intro v m b s
  refine ⟨fun hv hm hb => ?fits, fun h => ?tooWide, rfl, rfl⟩
  case fits =>
    have hfit : fieldsFit (layout .lli) [v, m, b] = true := by simp [fieldsFit, layout, fieldLimit, *]
    exact ⟨exec_structured_of_fits (r := .lli) rfl hfit s, exec_structured_of_fits (r := .rli) rfl hfit s,
      structuredWord_extractLsb' hfit (by decide), structuredWord_extractLsb' hfit (by decide)⟩
  case tooWide =>
    have hfit : fieldsFit (layout .lli) [v, m, b] = false := by
      simpa [fieldsFit_cons_eq_false, fieldsFit_nil, layout, fieldLimit] using h
    exact ⟨⟨_, exec_structured_of_not_fits (r := .lli) rfl hfit s, rfl⟩,
      ⟨_, exec_structured_of_not_fits (r := .rli) rfl hfit s, rfl⟩⟩

/-- Settles O8, the two headphone registers having one layout. -/
theorem setStructuredHeadphone : Obligations.SetStructuredHeadphone := by
  intro v z b s
  refine ⟨fun hv hz hb => ?fits, fun h => ?tooWide, rfl, rfl⟩
  case fits =>
    have hfit : fieldsFit (layout .lhp) [v, z, b] = true := by simp [fieldsFit, layout, fieldLimit, *]
    exact ⟨exec_structured_of_fits (r := .lhp) rfl hfit s, exec_structured_of_fits (r := .rhp) rfl hfit s,
      structuredWord_extractLsb' hfit (by decide)⟩
  case tooWide =>
    have hfit : fieldsFit (layout .lhp) [v, z, b] = false := by
      simpa [fieldsFit_cons_eq_false, fieldsFit_nil, layout, fieldLimit] using h
    exact ⟨⟨_, exec_structured_of_not_fits (r := .lhp) rfl hfit s, rfl⟩,
      ⟨_, exec_structured_of_not_fits (r := .rhp) rfl hfit s, rfl⟩⟩

/-- Settles O9: the word ends at sidetone-att, bits 7 and 6 (R80). -/
theorem setStructuredAnalogPath : Obligations.SetStructuredAnalogPath := by
  intro b m i y d n a s
  obtain ⟨hfits, htooWide⟩ := structured_outcomes .aapc [b, m, i, y, d, n, a] 8 8 s rfl (by decide)
  refine ⟨fun hb hm hi hy hd hn ha => hfits ?_, fun h => htooWide ?_, rfl⟩
  · simp [fieldsFit, layout, fieldLimit, *]
  · simpa [fieldsFit_cons_eq_false, fieldsFit_nil, layout, fieldLimit] using h

/-- Settles O10: the word ends at hp-filter, bit 4 (R81). -/
theorem setStructuredDigitalPath : Obligations.SetStructuredDigitalPath := by
  intro a e m h s
  obtain ⟨hfits, htooWide⟩ := structured_outcomes .dapc [a, e, m, h] 5 11 s rfl (by decide)
  refine ⟨fun ha he hm hh => hfits ?_, fun h => htooWide ?_, rfl⟩
  · simp [fieldsFit, layout, fieldLimit, *]
  · simpa [fieldsFit_cons_eq_false, fieldsFit_nil, layout, fieldLimit] using h

/-- Settles O11: eight fields of one bit each (R82). -/
theorem setStructuredPowerDown : Obligations.SetStructuredPowerDown := by
  intro l m a d u o c p s
  obtain ⟨hfits, htooWide⟩ := structured_outcomes .pdc [l, m, a, d, u, o, c, p] 8 8 s rfl (by decide)
  refine ⟨fun hl hm ha hd hu ho hc hp => hfits ?_, fun h => htooWide ?_, rfl⟩
  · simp [fieldsFit, layout, fieldLimit, *]
  · simpa [fieldsFit_cons_eq_false, fieldsFit_nil, layout, fieldLimit] using h

/-- Settles O12: two fields of two bits, then four of one (R83). -/
theorem setStructuredInterfaceFormat : Obligations.SetStructuredInterfaceFormat := by
  intro f l p w m b s
  obtain ⟨hfits, htooWide⟩ := structured_outcomes .daif [f, l, p, w, m, b] 8 8 s rfl (by decide)
  refine ⟨fun hf hl hp hw hm hb => hfits ?_, fun h => htooWide ?_, rfl⟩
  · simp [fieldsFit, layout, fieldLimit, *]
  · simpa [fieldsFit_cons_eq_false, fieldsFit_nil, layout, fieldLimit] using h

/-- Settles O13: sample-rate takes four bits, every other field one (R84). -/
theorem setStructuredSampling : Obligations.SetStructuredSampling := by
  intro u b r n o s
  obtain ⟨hfits, htooWide⟩ := structured_outcomes .sc [u, b, r, n, o] 8 8 s rfl (by decide)
  refine ⟨fun hu hb hr hn ho => hfits ?_, fun h => htooWide ?_, rfl⟩
  · simp [fieldsFit, layout, fieldLimit, *]
  · simpa [fieldsFit_cons_eq_false, fieldsFit_nil, layout, fieldLimit] using h

/-- Settles O14: the word is the one operand itself, 0 or 1 (R85). -/
theorem setStructuredActive : Obligations.SetStructuredActive := by
  intro a s
  refine ⟨fun ha => ?fits, fun h => ⟨_, exec_structured_of_not_fits (r := .ac) (fv := [a]) rfl ?tooWide s, rfl⟩, rfl⟩
  case fits =>
    have hfit : fieldsFit (layout .ac) [a] = true := by simp [fieldsFit, layout, fieldLimit, *]
    have hbit : a = 0x0000#16 ∨ a = 0x0001#16 := by bv_omega
    exact ⟨exec_structured_of_fits (r := .ac) rfl hfit s, structuredWord_extractLsb' hfit (by decide), hbit⟩
  case tooWide => simpa [fieldsFit_cons_eq_false, fieldsFit_nil, layout, fieldLimit] using h

/-! ### The status of a command (R88, R128) -/

theorem seqStep_trace (c : Command) (k : Nat) (p : ProgStep) (s : State) :
    (seqStep c k p s).trace = (performStep p s).1.trace := by
  obtain ⟨q, h⟩ | ⟨st, h⟩ := seqStep_cases c k p s <;> rw [h]
  · exact State.setSeq_trace q _
  · exact State.endCommand_trace st _

/-- One sequencer step whose fields fit: one frame, and what its answer makes of the command. It ends with BusError, ends with Ok at the
program's last step, or goes on to the next step (R96 to R98). -/
theorem seqStep_of_fits {p : ProgStep} (hfits : p.fits = true) (c : Command) (k : Nat) (s : State) :
    ∃ e : TraceEntry, (seqStep c k p s).trace = s.trace ++ [e] ∧
      (e.answer = .busError ∧ (seqStep c k p s).seq = .idle ∧ (seqStep c k p s).statuses = s.statuses ++ [.busError] ∨
        e.answer = .ok ∧ k = (program c).length ∧ (seqStep c k p s).seq = .idle ∧
          (seqStep c k p s).statuses = s.statuses ++ [.ok] ∨
        e.answer = .ok ∧ k ≠ (program c).length ∧ (seqStep c k p s).seq = .run c (k + 1) ∧
          (seqStep c k p s).statuses = s.statuses) := by
  have hstep := performStep_of_fits hfits s
  have htrace := seqStep_trace c k p s
  rw [hstep] at htrace
  refine ⟨_, htrace, ?_⟩
  cases hans : s.answerAt 0 with
  | busError =>
    have hstatus : (performStep p s).2 = .busError := by rw [hstep, hans]; rfl
    rw [seqStep_of_ne_ok (by rw [hstatus]; decide), hstatus, hstep]
    exact .inl ⟨hans, rfl, rfl⟩
  | ok =>
    have hstatus : (performStep p s).2 = .ok := by rw [hstep, hans]; rfl
    by_cases hlast : k = (program c).length
    · rw [seqStep_of_ok_of_last hstatus hlast, hstep]
      exact .inr (.inl ⟨hans, hlast, rfl, rfl⟩)
    · rw [seqStep_of_ok_of_ne hstatus hlast, hstep]
      exact .inr (.inr ⟨hans, hlast, rfl, rfl⟩)

/-- From `s` to `t` one operation returned its one status: BusError if one of its own frames was so answered, Ok if none was. -/
def State.EndsByAnswers (s t : State) : Prop :=
  ∃ (st : Status) (fs : List TraceEntry), t.statuses = s.statuses ++ [st] ∧ t.trace = s.trace ++ fs ∧
    (st = .ok ∨ st = .busError) ∧ (st = .busError ↔ ∃ e ∈ fs, e.answer = .busError)

/-- A frame answered Ok before changes nothing of what the later frames decide. -/
theorem State.EndsByAnswers.of_ok_frame {s t u : State} {e : TraceEntry} (h : t.EndsByAnswers u)
    (hstatuses : t.statuses = s.statuses) (htrace : t.trace = s.trace ++ [e]) (hok : e.answer = .ok) : s.EndsByAnswers u := by
  obtain ⟨st, fs, hst, hfs, hcases, hiff⟩ := h
  refine ⟨st, e :: fs, by rw [hst, hstatuses], by rw [hfs, htrace, List.append_assoc, List.singleton_append], hcases, ?_⟩
  simp [hiff, hok]

/-- The steps left, up to the program's last one, end the command by their answers. -/
theorem runSteps_endsByAnswers {c : Command} {ps : List ProgStep} (hfits : ∀ p ∈ ps, p.fits = true) (hne : ps ≠ []) {k : Nat}
    (hlen : k + ps.length = (program c).length + 1) (s : State) : s.EndsByAnswers (runSteps c ps k s) := by
  induction ps generalizing k s with
  | nil => exact absurd rfl hne
  | cons p rest ih =>
    obtain ⟨hp, hrest⟩ := List.forall_mem_cons.mp hfits
    rw [List.length_cons] at hlen
    obtain ⟨e, htrace, ⟨hans, hseq, hstatuses⟩ | ⟨hans, -, hseq, hstatuses⟩ | ⟨hans, hlast, hseq, hstatuses⟩⟩ :=
      seqStep_of_fits hp c k s
    all_goals simp only [runSteps, hseq]
    · exact ⟨.busError, [e], hstatuses, htrace, .inr rfl, by simp [hans]⟩
    · exact ⟨.ok, [e], hstatuses, htrace, .inl rfl, by simp [hans]⟩
    · have hrestne : rest ≠ [] := fun h => hlast (by rw [h] at hlen; simpa using hlen)
      exact (ih hrest hrestne (by omega) _).of_ok_frame hstatuses htrace hans

/-- Settles O45: the fields of every program fit (R88), so that only the transport's answers decide the status. -/
theorem commandsReturnOnlyOkOrBusError : Obligations.CommandsReturnOnlyOkOrBusError := by
  intro c s hidle
  have hends : s.EndsByAnswers (runSteps c (program c) 1 (accept c s)) :=
    runSteps_endsByAnswers (fun _ => program_fits) (List.ne_nil_of_length_pos (program_length_pos c)) (Nat.add_comm ..)
      (accept c s)
  obtain ⟨st, fs, hstatuses, htrace, hcases, hiff⟩ := hends
  exact ⟨_, st, fs, (exec_of_command c s).trans (runCommand_of_idle hidle), hstatuses, htrace, hcases, hiff⟩

end Sys2Proof.Machine

/-! PROOFS. The write plumbing (41_write_plumbing.md R90 to R93): WRITE_REG, WRITE_RAW and the store as exact next states, and that a
frame goes out only under a command, with the word the command has just stored. -/

namespace Sys2Proof.Machine

/-! ### The status and the words of WRITE_REG and WRITE_RAW (R60, R91) -/

theorem statusOf_eq_ite (a : Answer) : statusOf a = if a = .busError then .busError else .ok := by
  cases a <;> rfl

/-- A micro-operation word that names a register is its opcode at the top joined with the bank index (R60). -/
theorem uopWord_eq_or (op : BitVec 4) (r : RegId) : uopWord op r = (op ++ 0#24 ++ 0#4) ||| (regIndex r).setWidth 32 := by
  have hreg : (regIndex r).setWidth 32 = 0#28 ++ regIndex r := BitVec.setWidth_eq_append (by decide)
  rw [hreg, BitVec.or_append, BitVec.or_zero, BitVec.zero_or, uopWord]

/-- The WRITE_RAW word has the address in [23:16] and the value in [15:0] (R60). -/
theorem rawWord_eq_or (a : Byte) (w : Word) :
    rawWord a w = 0xB0000000#32 ||| (a.setWidth 32 <<< 16) ||| w.setWidth 32 := by
  have hop : 0xB0000000#32 = 0xB#4 ++ 0#4 ++ 0#8 ++ 0#16 := rfl
  have haddr : a.setWidth 32 <<< 16 = 0#8 ++ a ++ 0#16 := by
    rw [BitVec.shiftLeft_eq_concat_of_lt (by decide), ← BitVec.setWidth_eq_extractLsb' (by decide),
      BitVec.setWidth_setWidth_of_le _ (by decide), BitVec.setWidth_eq_append (by decide)]
    rfl
  have hval : w.setWidth 32 = 0#16 ++ w := BitVec.setWidth_eq_append (by decide)
  rw [hop, haddr, hval, BitVec.or_append, BitVec.or_append, BitVec.or_append]
  simp only [BitVec.or_zero, BitVec.zero_or, rawWord]

/-- Settles O17: WRITE_REG is the bus write of the bank's word. -/
theorem writeRegSendsCurrentWord : Obligations.WriteRegSendsCurrentWord := fun r s =>
  ⟨_, exec_writeReg r s, rfl, by rw [State.logResult_results, State.busWrite_results, statusOf_eq_ite], rfl, rfl, rfl, rfl, rfl,
    addr_ne_resetAddr r, (regIndex_toNat r).symm, congrArg (Encoded.microOp · []) (uopWord_eq_or 0xA#4 r)⟩

/-- Settles O18: WRITE_RAW is one bus write, and the programs send only to the registers and the reset trigger. -/
theorem writeRawSendsOneFrame : Obligations.WriteRawSendsOneFrame := by
  refine ⟨fun c p b _ => ?address, fun a w s => ⟨_, exec_writeRaw a w s, rfl, ?result, rfl, rfl, rfl, rfl, rfl, ?word⟩⟩
  case address =>
    cases p with
    | store r fv => exact .inl (addr_le r)
    | resetTrigger => exact .inr rfl
  case result => rw [State.logResult_results, State.busWrite_results, statusOf_eq_ite]
  case word => exact congrArg (Encoded.microOp · []) (rawWord_eq_or a w)

/-- Settles O19: a store that fits is the bank write and then the frame, which leaves the bank as it is whatever the answer. -/
theorem storeKeepsNewWordOnBusError : Obligations.StoreKeepsNewWordOnBusError := by
  intro r fv s hfit
  rw [store_of_fits hfit]
  exact ⟨rfl, rfl, fun hans => ⟨congrArg statusOf hans, RegFile.get_set_self _ _ _⟩, congrArg statusOf⟩

/-! ### A frame goes out only under a command (R93) -/

/-- A frame of the program steps `ps`: the reset trigger, or a stored word that the bank `b` holds (R93). -/
def TraceEntry.OfSteps (ps : List ProgStep) (b : RegFile Word) (e : TraceEntry) : Prop :=
  (e.address = 0x0F#8 ∧ e.value = 0x0000#16) ∨
    ∃ (r : RegId) (fv : List FieldValue), .store r fv ∈ ps ∧ e.address = addr r ∧ e.value = pack r fv ∧ b.get r = e.value

/-- From `s` to `t` the slot of the placed word stays as it is, and every frame sent is one of the program steps `ps`, its word held
at the end. -/
def State.SendsOnly (ps : List ProgStep) (s t : State) : Prop :=
  t.placed = s.placed ∧ ∃ fs : List TraceEntry, t.trace = s.trace ++ fs ∧ ∀ e ∈ fs, e.OfSteps ps t.bank

/-- No two of the steps store the same register. -/
def DistinctTargets (ps : List ProgStep) : Prop :=
  ps.Pairwise fun p q => ∀ r, p.target = some r → q.target ≠ some r

/-- INITIALIZE stores seven different registers; every other program is one step (R94, R102). -/
theorem program_distinctTargets (c : Command) : DistinctTargets (program c) := by
  cases c with
  | initializeCodec => simp [DistinctTargets, program, programInitialize, storeLineIn, storeHeadphone, ProgStep.target]
  | reset | setLineInVolume | setHeadphoneVolume | headphoneMute => exact List.pairwise_singleton _ _

/-- A frame stays one of the steps when more steps follow, none of which stores its register. -/
theorem TraceEntry.OfSteps.of_following {p : ProgStep} {ps : List ProgStep} {b b' : RegFile Word} {e : TraceEntry}
    (h : e.OfSteps [p] b) (hb : ∀ r, p.target = some r → b'.get r = b.get r) : e.OfSteps (p :: ps) b' := by
  obtain h | ⟨r, fv, hmem, haddr, hvalue, hheld⟩ := h
  · exact .inl h
  · obtain rfl := List.mem_singleton.mp hmem
    exact .inr ⟨r, fv, List.mem_cons_self, haddr, hvalue, (hb r rfl).trans hheld⟩

theorem TraceEntry.OfSteps.mono {ps qs : List ProgStep} {b : RegFile Word} {e : TraceEntry} (h : e.OfSteps ps b)
    (hsub : ps ⊆ qs) : e.OfSteps qs b :=
  h.imp_right fun ⟨r, fv, hmem, hrest⟩ => ⟨r, fv, hsub hmem, hrest⟩

namespace State.SendsOnly

variable {ps : List ProgStep} {s t u : State}

theorem mono {qs : List ProgStep} (h : SendsOnly ps s t) (hsub : ps ⊆ qs) : SendsOnly qs s t :=
  h.imp_right fun ⟨fs, htrace, hfs⟩ => ⟨fs, htrace, fun e he => (hfs e he).mono hsub⟩

theorem performStep {p : ProgStep} (hfits : p.fits = true) (s : State) : SendsOnly [p] s (performStep p s).1 := by
  rw [performStep_of_fits hfits]
  refine ⟨rfl, [_], rfl, List.forall_mem_singleton.mpr ?_⟩
  cases p with
  | resetTrigger => exact .inl ⟨rfl, rfl⟩
  | store r fv => exact .inr ⟨r, fv, List.mem_singleton_self _, rfl, RegFile.get_set_self _ _ _, rfl⟩

theorem seqStep {p : ProgStep} (hfits : p.fits = true) (c : Command) (k : Nat) (s : State) :
    SendsOnly [p] s (seqStep c k p s) := by
  have hstep : SendsOnly [p] s (Machine.performStep p s).1 := performStep hfits s
  obtain ⟨q, h⟩ | ⟨st, h⟩ := seqStep_cases c k p s <;> rw [h] <;> exact hstep

/-- The word a step stores is held to the end, since no later step stores its register. -/
theorem runSteps (hfits : ∀ p ∈ ps, p.fits = true) (hdistinct : DistinctTargets ps) (c : Command) (k : Nat) (s : State) :
    SendsOnly ps s (runSteps c ps k s) := by
  induction ps generalizing k s with
  | nil => exact ⟨rfl, [], (List.append_nil _).symm, by simp⟩
  | cons p rest ih =>
    obtain ⟨hp, hrest⟩ := List.forall_mem_cons.mp hfits
    obtain ⟨hlater, hdistinct⟩ := List.pairwise_cons.mp hdistinct
    have hstep : SendsOnly [p] s (Machine.seqStep c k p s) := seqStep hp c k s
    simp only [Machine.runSteps]
    split
    · exact hstep.mono (by simp)
    · obtain ⟨hplaced, fs, htrace, hfs⟩ := hstep
      obtain ⟨hplaced', gs, htrace', hgs⟩ := ih hrest hdistinct (k + 1) (Machine.seqStep c k p s)
      refine ⟨hplaced'.trans hplaced, fs ++ gs, by rw [htrace', htrace, List.append_assoc], ?_⟩
      refine List.forall_mem_append.mpr ⟨fun e he => (hfs e he).of_following fun r hr => ?_, fun e he => ?_⟩
      · exact runSteps_bank_get (fun q hq => hlater q hq r hr) c (k + 1) _
      · exact (hgs e he).mono (List.subset_cons_self p rest)

/-- A command run whole sends only the frames of its program (R100). -/
theorem runCommand (c : Command) (s : State) : NextMeets (SendsOnly (program c) s) (runCommand c s) := by
  unfold Machine.runCommand
  split
  · exact runSteps (s := accept c s) (fun _ => program_fits) (program_distinctTargets c) c 1
  · exact nextMeets_fault _ _

/-- One step of a running command sends only the frame of that step (R96). -/
theorem runningStep (c : Command) (k : Nat) (s : State) : NextMeets (SendsOnly (program c) s) (runningStep c k s) := by
  cases k with
  | zero => exact nextMeets_fault _ _
  | succ j =>
    simp only [Machine.runningStep]
    split
    · next p hp =>
      have hmem : p ∈ program c := List.mem_of_getElem? hp
      exact (seqStep (program_fits hmem) c (j + 1) s).mono (List.cons_subset.mpr ⟨hmem, List.nil_subset _⟩)
    · exact nextMeets_fault _ _

theorem step_of_running {c : Command} {k : Nat} (hseq : s.seq = .run c k) : NextMeets (SendsOnly (program c) s) (step s) := by
  simpa only [step, hseq] using runningStep c k s

/-- Taking the request sends nothing, so that the frames are those of the accepted command. -/
theorem step_of_accepted {c : Command} {w : BitVec 32} {rest : List Request} (hseq : s.seq = .idle) (hplaced : s.placed = none)
    (hinbox : s.inbox = .command w :: rest) (hdecode : decode (.command w) = .ok c.instr) :
    NextMeets (SendsOnly (program c) s) (step s) := by
  have hrun : takeWord (.command w) (s.setInbox rest) = Machine.runCommand c (s.setInbox rest) := by
    simp only [takeWord, hdecode, exec_of_command]
  rw [step_of_command hseq hplaced hinbox, hrun]
  exact runCommand c (s.setInbox rest)

end State.SendsOnly

theorem step_of_hardwareReset {s : State} {rest : List Request} (hseq : s.seq = .idle) (hplaced : s.placed = none)
    (hinbox : s.inbox = .hardwareReset :: rest) : step s = .next (s.setInbox rest).powerOnReset := by
  simp only [step, hseq, hplaced, hinbox]

/-- Settles O58: a running command and an accepted one send only frames of their program; every other step sends none. -/
theorem blockSendsOnlyUnderCommand : Obligations.BlockSendsOnlyUnderCommand := by
  intro s t hplaced ht
  cases hseq : s.seq with
  | run c k =>
    have h : NextMeets (State.SendsOnly (program c) s) (step s) := State.SendsOnly.step_of_running hseq
    rw [ht, nextMeets_next] at h
    obtain ⟨hkept, fs, htrace, hfs⟩ := h
    exact ⟨hkept.trans hplaced, fs, .inl htrace, .inr ⟨c, .inl ⟨k, rfl⟩, hfs⟩⟩
  | idle =>
    match hinbox : s.inbox with
    | [] =>
      rw [step_eq_idleTick hseq hplaced hinbox] at ht
      cases ht
      exact ⟨hplaced, [], .inl (List.append_nil _).symm, .inl rfl⟩
    | .hardwareReset :: rest =>
      rw [step_of_hardwareReset hseq hplaced hinbox] at ht
      cases ht
      exact ⟨hplaced, [], .inr ⟨rfl, rfl, rfl, rfl⟩, .inl rfl⟩
    | .command w :: rest =>
      cases hlegal : legalCommandWord w with
      | false =>
        rw [step_of_command hseq hplaced hinbox, takeWord_of_not_legal hlegal] at ht
        cases ht
        exact ⟨hplaced, [], .inl (List.append_nil _).symm, .inl rfl⟩
      | true =>
        obtain ⟨i, hdecode⟩ := legalCommandWord_iff_decodes.mp hlegal
        obtain ⟨c, -, rfl⟩ := decode_command_eq_ok.mp hdecode
        have h : NextMeets (State.SendsOnly (program c) s) (step s) := State.SendsOnly.step_of_accepted hseq hplaced hinbox hdecode
        rw [ht, nextMeets_next] at h
        obtain ⟨hkept, fs, htrace, hfs⟩ := h
        exact ⟨hkept.trans hplaced, fs, .inl htrace, .inr ⟨c, .inr ⟨rfl, w, rest, rfl, hdecode⟩, hfs⟩⟩

end Sys2Proof.Machine

/-! PROOFS. The sequencer (42_sequencer_init_reset.md R94 to R109): one step of a running command as one equation, a whole command as
the function `run` (R100) and as steps of the machine, and what follows for its two ends, for INITIALIZE and for RESET. -/

namespace Sys2Proof.Machine

/-! ### One step of the sequencer (R96 to R98) -/

/-- The address a program step sends to: its register's, or the reset trigger (R94). -/
def ProgStep.address (p : ProgStep) : Byte := p.target.elim resetAddr addr

/-- The word a program step sends (R92, R94). -/
def ProgStep.word : ProgStep → Word
  | .store r fv => pack r fv
  | .resetTrigger => resetValue

/-- The frame of a program step, answered `a`. -/
def ProgStep.entry (p : ProgStep) (a : Answer) : TraceEntry := ⟨Config.deviceAddr, p.address, p.word, a⟩

/-- The update comes before the frame, so that the frame carries the step's own word (R92). -/
theorem ProgStep.frame_update (p : ProgStep) (b : RegFile Word) : p.frame (p.update b) = (p.address, p.word) := by
  cases p with
  | store r fv => exact congrArg (Prod.mk (addr r)) (RegFile.get_set_self b r _)
  | resetTrigger => rfl

/-- A program step up to its answer: the bank update, then the one frame (R96). -/
def ProgStep.issue (p : ProgStep) (s : State) : State :=
  State.busWrite p.address p.word { s with bank := p.update s.bank }

theorem performStep_eq_issue {p : ProgStep} (hfits : p.fits = true) (s : State) :
    performStep p s = (p.issue s, statusOf (s.answerAt 0)) := by
  rw [performStep_of_fits hfits, ProgStep.frame_update, ProgStep.issue]

/-- The sequencer after the answer to step `k` (R96 to R98). -/
def seqAfter (c : Command) (k : Nat) : Answer → Seq
  | .busError => .idle
  | .ok => if k = (program c).length then .idle else .run c (k + 1)

/-- The status the answer to step `k` makes the command return, if any (R97, R98). -/
def statusAfter (c : Command) (k : Nat) : Answer → List Status
  | .busError => [.busError]
  | .ok => if k = (program c).length then [.ok] else []

/-- One sequencer step whose fields fit, as one equation. -/
theorem seqStep_eq {p : ProgStep} (hfits : p.fits = true) (c : Command) (k : Nat) (s : State) :
    seqStep c k p s = { p.issue s with
      seq := seqAfter c k (s.answerAt 0)
      statuses := s.statuses ++ statusAfter c k (s.answerAt 0) } := by
  have hstep := performStep_eq_issue hfits s
  cases hans : s.answerAt 0 with
  | busError =>
    have hstatus : (performStep p s).2 = .busError := by rw [hstep, hans]; rfl
    rw [seqStep_of_ne_ok (by rw [hstatus]; decide), hstatus, hstep]
    rfl
  | ok =>
    have hstatus : (performStep p s).2 = .ok := by rw [hstep, hans]; rfl
    by_cases hlast : k = (program c).length
    · rw [seqStep_of_ok_of_last hstatus hlast, hstep, seqAfter, statusAfter, if_pos hlast, if_pos hlast]
      rfl
    · rw [seqStep_of_ok_of_ne hstatus hlast, hstep, seqAfter, statusAfter, if_neg hlast, if_neg hlast, List.append_nil]
      rfl

/-- A step that ends the command: an answer BusError, or the program's last step (R97, R98). -/
theorem seqStep_of_ends {p : ProgStep} (hfits : p.fits = true) {c : Command} {k : Nat} {s : State}
    (h : s.answerAt 0 = .busError ∨ k = (program c).length) :
    seqStep c k p s = (p.issue s).endCommand (statusOf (s.answerAt 0)) := by
  rw [seqStep_eq hfits]
  cases hans : s.answerAt 0 with
  | busError => rfl
  | ok =>
    have hlast : k = (program c).length := h.resolve_left (by rw [hans]; decide)
    rw [seqAfter, statusAfter, if_pos hlast, if_pos hlast]
    rfl

/-- A step that the command goes on from (R96). -/
theorem seqStep_of_goesOn {p : ProgStep} (hfits : p.fits = true) {c : Command} {k : Nat} {s : State}
    (hans : s.answerAt 0 = .ok) (hk : k ≠ (program c).length) :
    seqStep c k p s = (p.issue s).setSeq (.run c (k + 1)) := by
  rw [seqStep_eq hfits, hans, seqAfter, statusAfter, if_neg hk, if_neg hk, List.append_nil]
  rfl

theorem step_of_running {s : State} {c : Command} {k : Nat} {p : ProgStep} (hseq : s.seq = .run c (k + 1))
    (hp : (program c)[k]? = some p) : step s = .next (seqStep c (k + 1) p s) := by
  simp only [step, hseq, runningStep, hp]

/-- A step index of the program has its step (R33). -/
theorem exists_step_of_inProgram {c : Command} {k : Nat} (h : (Seq.run c k).InProgram) :
    ∃ j p, k = j + 1 ∧ (program c)[j]? = some p ∧ p.fits = true := by
  obtain ⟨hpos, hle⟩ := h
  have hlt : k - 1 < (program c).length := by omega
  exact ⟨k - 1, _, by omega, List.getElem?_eq_getElem hlt, program_fits (List.getElem_mem hlt)⟩

/-- Settles O32: `seqStep_eq` field by field. -/
theorem sequencerPerformsOneStep : Obligations.SequencerPerformsOneStep := by
  refine ⟨fun _ _ => rfl, fun s c k p hseq hp => ⟨_, step_of_running hseq hp, ?_⟩⟩
  rw [seqStep_eq (program_fits (List.mem_of_getElem? hp)), ProgStep.frame_update]
  refine ⟨rfl, rfl, rfl, rfl, rfl, fun hans => ?aborts, fun hans hlast => ?ends, fun hans hlt => ?goesOn⟩
  case aborts => simp [hans, seqAfter, statusAfter]
  case ends => simp [hans, hlast, seqAfter, statusAfter]
  case goesOn => simp [hans, hlt.ne, seqAfter, statusAfter]

/-- Settles O31: `seqStep_eq` names neither the requests nor the placed word; a command executed in Run meets the busy stop. -/
theorem runningSequencerTakesNoRequest : Obligations.RunningSequencerTakesNoRequest := by
  constructor
  · intro s c k hseq hin
    rw [hseq] at hin
    obtain ⟨j, p, rfl, hp, hfits⟩ := exists_step_of_inProgram hin
    refine ⟨_, step_of_running hseq hp, ?_⟩
    rw [seqStep_eq hfits]
    refine ⟨rfl, rfl, fun q e => ?_⟩
    rw [step_of_running (s := { s with inbox := q, placed := e }) hseq hp, seqStep_eq hfits]
    rfl
  · intro s c d k hseq
    simp only [exec_of_command, runCommand, hseq]

/-! ### A whole command is the function `run` (R100) -/

/-- From `s` a command has ended in `t` with the result `r`, one answer used for each frame, and nothing else of the record changed. -/
structure State.EndsWith (s t : State) (r : CommandResult) : Prop where
  seq      : t.seq = .idle
  bank     : t.bank = r.bank
  trace    : t.trace = s.trace ++ r.trace
  statuses : t.statuses = s.statuses ++ [r.status]
  results  : t.results = s.results
  inbox    : t.inbox = s.inbox
  placed   : t.placed = s.placed
  answers  : t.answers = s.answers.drop r.trace.length

/-- The step that ends a command: its own update, frame and answer are the result. -/
theorem ProgStep.endsWith_endCommand (p : ProgStep) (s : State) :
    s.EndsWith ((p.issue s).endCommand (statusOf (s.answerAt 0)))
      ⟨p.update s.bank, [p.entry (s.answerAt 0)], statusOf (s.answerAt 0)⟩ :=
  ⟨rfl, rfl, rfl, rfl, rfl, rfl, rfl, List.drop_one.symm⟩

/-- After a step answered Ok that is not the last, the steps left decide the result, the step's frame standing before theirs. -/
theorem State.EndsWith.cons_entry {s t : State} {p : ProgStep} {q : Seq} {r : CommandResult}
    (h : ((p.issue s).setSeq q).EndsWith t r) (hok : s.answerAt 0 = .ok) : s.EndsWith t (r.cons (p.entry .ok)) where
  seq := h.seq
  bank := h.bank
  trace := by
    rw [h.trace, ← hok]
    exact List.append_assoc s.trace [p.entry (s.answerAt 0)] r.trace
  statuses := h.statuses
  results := h.results
  inbox := h.inbox
  placed := h.placed
  answers := h.answers.trans List.drop_tail

theorem runSteps_cons_of_ends {p : ProgStep} (hfits : p.fits = true) {c : Command} {k : Nat} {s : State}
    (h : s.answerAt 0 = .busError ∨ k = (program c).length) (ps : List ProgStep) :
    runSteps c (p :: ps) k s = (p.issue s).endCommand (statusOf (s.answerAt 0)) := by
  rw [runSteps, seqStep_of_ends hfits h]
  rfl

theorem runSteps_cons_of_goesOn {p : ProgStep} (hfits : p.fits = true) {c : Command} {k : Nat} {s : State}
    (hans : s.answerAt 0 = .ok) (hk : k ≠ (program c).length) (ps : List ProgStep) :
    runSteps c (p :: ps) k s = runSteps c ps (k + 1) ((p.issue s).setSeq (.run c (k + 1))) := by
  rw [runSteps, seqStep_of_goesOn hfits hans hk]
  rfl

theorem ProgStep.answerAt_issue (p : ProgStep) (s : State) (k : Nat) : (p.issue s).answerAt k = s.answerAt (k + 1) :=
  State.answerAt_busWrite { s with bank := p.update s.bank } p.address p.word k

theorem referenceSteps_cons (answers : Nat → Answer) (p : ProgStep) (ps : List ProgStep) (j : Nat) (b : RegFile Word) :
    referenceSteps answers (p :: ps) j b =
      if answers j = .ok then (referenceSteps answers ps (j + 1) (p.update b)).cons (p.entry .ok)
      else ⟨p.update b, [p.entry .busError], .busError⟩ := by
  simp only [referenceSteps, ProgStep.frame_update]
  cases answers j <;> rfl

/-- The steps left, up to the program's last one, end as the loop of `run` does with the answers that are still to come. -/
theorem runSteps_endsWith {c : Command} {ps : List ProgStep} (hfits : ∀ p ∈ ps, p.fits = true) (hne : ps ≠ []) {k : Nat}
    (hlen : k + ps.length = (program c).length + 1) {answers : Nat → Answer} {j : Nat} {s : State}
    (hanswers : ∀ i, s.answerAt i = answers (j + i)) :
    s.EndsWith (runSteps c ps k s) (referenceSteps answers ps j s.bank) := by
  induction ps generalizing k j s with
  | nil => exact absurd rfl hne
  | cons p rest ih =>
    obtain ⟨hp, hrest⟩ := List.forall_mem_cons.mp hfits
    rw [List.length_cons] at hlen
    have hans : answers j = s.answerAt 0 := (hanswers 0).symm
    have hend := p.endsWith_endCommand s
    rw [referenceSteps_cons, hans]
    cases hfirst : s.answerAt 0 with
    | busError =>
      rw [runSteps_cons_of_ends hp (.inl hfirst)]
      rwa [hfirst] at hend ⊢
    | ok =>
      by_cases hlast : k = (program c).length
      · obtain rfl : rest = [] := List.length_eq_zero_iff.mp (by omega)
        rw [runSteps_cons_of_ends hp (.inr hlast)]
        rwa [hfirst] at hend ⊢
      · have hrestne : rest ≠ [] := fun h => hlast (by rw [h] at hlen; simpa using hlen)
        have hlater (i : Nat) : (p.issue s).answerAt i = answers (j + 1 + i) := by
          rw [p.answerAt_issue, hanswers, Nat.add_right_comm, Nat.add_assoc]
        rw [runSteps_cons_of_goesOn hp hfirst hlast, if_pos rfl]
        exact (ih (s := (p.issue s).setSeq (.run c (k + 1))) hrest hrestne (by omega) hlater).cons_entry hfirst

/-- A command executed in Idle ends with the result of `run` (R100). -/
theorem exec_endsWith (c : Command) {s : State} (hidle : s.seq = .idle) :
    ∃ t, exec c.instr s = .next t ∧ s.EndsWith t (referenceRun c s.bank s.answerAt) := by
  have h : (accept c s).EndsWith (runSteps c (program c) 1 (accept c s)) (referenceRun c s.bank s.answerAt) :=
    runSteps_endsWith (s := accept c s) (answers := s.answerAt) (fun _ => program_fits)
      (List.ne_nil_of_length_pos (program_length_pos c)) (Nat.add_comm ..)
      (fun i => congrArg s.answerAt (Nat.zero_add i).symm)
  exact ⟨_, (exec_of_command c s).trans (runCommand_of_idle hidle),
    ⟨h.seq, h.bank, h.trace, h.statuses, h.results, h.inbox, h.placed, h.answers⟩⟩

/-- Settles O35: `State.EndsWith` is its conclusion. -/
theorem commandAgreesWithRun : Obligations.CommandAgreesWithRun := by
  intro c s hidle
  obtain ⟨t, hexec, h⟩ := exec_endsWith c hidle
  exact ⟨t, hexec, h.seq, h.bank, h.trace, h.statuses, h.results, h.inbox, h.placed, h.answers⟩

/-! ### The two ends of a command (R97, R98) -/

/-- Steps that are all answered Ok make their updates and send their frames, and `run` goes on with the steps that follow. -/
theorem referenceSteps_append_of_ok {answers : Nat → Answer} {ps : List ProgStep} {j : Nat}
    (hok : ∀ i < ps.length, answers (j + i) = .ok) (qs : List ProgStep) (b : RegFile Word) :
    referenceSteps answers (ps ++ qs) j b =
      (ps.map (·.entry .ok)).foldr CommandResult.cons
        (referenceSteps answers qs (j + ps.length) (ps.foldl ProgStep.update b)) := by
  induction ps generalizing j b with
  | nil => rfl
  | cons p rest ih =>
    have hfirst : answers j = .ok := hok 0 (Nat.zero_lt_succ _)
    have hrest : ∀ i < rest.length, answers (j + 1 + i) = .ok := fun i hi => by
      rw [Nat.add_right_comm]
      exact hok (i + 1) (Nat.succ_lt_succ hi)
    rw [List.cons_append, referenceSteps_cons, if_pos hfirst, ih hrest, Nat.add_right_comm]
    rfl

theorem foldr_cons_eq (es : List TraceEntry) (r : CommandResult) :
    es.foldr CommandResult.cons r = { r with trace := es ++ r.trace } := by
  induction es with
  | nil => rfl
  | cons e es ih => rw [List.foldr_cons, ih]; rfl

theorem referenceRun_of_all_ok {c : Command} {answers : Nat → Answer} (hok : ∀ k < (program c).length, answers k = .ok)
    (b : RegFile Word) :
    referenceRun c b answers = ⟨(program c).foldl ProgStep.update b, (program c).map (·.entry .ok), .ok⟩ := by
  have h := referenceSteps_append_of_ok (j := 0) (by simpa using hok) [] b
  rw [List.append_nil, foldr_cons_eq] at h
  rw [referenceRun, h]
  simp [referenceSteps]

theorem referenceRun_of_busError {c : Command} {answers : Nat → Answer} {n : Nat} {p : ProgStep}
    (hp : (program c)[n]? = some p) (hok : ∀ k < n, answers k = .ok) (hans : answers n = .busError) (b : RegFile Word) :
    referenceRun c b answers =
      ⟨((program c).take (n + 1)).foldl ProgStep.update b,
        ((program c).take n).map (·.entry .ok) ++ [p.entry .busError], .busError⟩ := by
  obtain ⟨hlt, rfl⟩ := List.getElem?_eq_some_iff.mp hp
  have hlen : ((program c).take n).length = n := List.length_take_of_le hlt.le
  have h := referenceSteps_append_of_ok (j := 0) (ps := (program c).take n) (by simpa [hlen] using hok)
    ((program c).drop n) b
  rw [List.take_append_drop, List.drop_eq_getElem_cons hlt, referenceSteps_cons, hlen, Nat.zero_add, hans,
    foldr_cons_eq] at h
  rw [referenceRun, h, ← List.take_concat_get' _ _ hlt, List.foldl_append]
  rfl

/-- The frame of a step over the bank after its own update and those before it (R100). -/
theorem entry_eq_of_getElem? {ps : List ProgStep} {k : Nat} {p : ProgStep} (hp : ps[k]? = some p) (b : RegFile Word)
    (a : Answer) :
    p.entry a = ⟨Config.deviceAddr, (p.frame ((ps.take (k + 1)).foldl ProgStep.update b)).1,
      (p.frame ((ps.take (k + 1)).foldl ProgStep.update b)).2, a⟩ := by
  obtain ⟨hlt, rfl⟩ := List.getElem?_eq_some_iff.mp hp
  rw [← List.take_concat_get' _ _ hlt, List.foldl_append, List.foldl_cons, List.foldl_nil, ProgStep.frame_update]
  rfl

/-- Settles O33: `run` with every answer Ok. -/
theorem commandCompletesWithOk : Obligations.CommandCompletesWithOk := by
  intro c s hidle hok
  obtain ⟨t, hexec, h⟩ := exec_endsWith c hidle
  rw [referenceRun_of_all_ok hok] at h
  refine ⟨t, hexec, h.seq, h.statuses, h.bank, _, h.trace, List.length_map _, fun k p hp => ?_⟩
  rw [List.getElem?_map, hp]
  exact congrArg some (entry_eq_of_getElem? hp _ _)

/-- Settles O34: `run` with its first BusError at write `n + 1`. -/
theorem commandAbortsAtFirstBusError : Obligations.CommandAbortsAtFirstBusError := by
  intro c s n hidle hn hok hans
  obtain ⟨t, hexec, h⟩ := exec_endsWith c hidle
  rw [referenceRun_of_busError (List.getElem?_eq_getElem hn) hok hans] at h
  have hlen : (((program c).take n).map (·.entry .ok)).length = n := by
    rw [List.length_map, List.length_take_of_le hn.le]
  refine ⟨t, hexec, h.seq, h.statuses, h.bank, _, h.trace, ?length, fun k p hk hp => ?frame⟩
  case length => rw [List.length_append, hlen, List.length_singleton]
  case frame =>
    dsimp only
    rw [← entry_eq_of_getElem? hp]
    obtain hlt | rfl := Nat.lt_or_eq_of_le hk
    · rw [List.getElem?_append_left (hlen.symm ▸ hlt), List.getElem?_map, List.getElem?_take_of_lt hlt, hp, hok k hlt]
      rfl
    · rw [List.getElem?_append_right hlen.le, hlen, Nat.sub_self, hans, (List.getElem?_eq_some_iff.mp hp).2]
      rfl

/-! ### A whole command is steps of the machine (R95 to R98) -/

/-- The machine takes `n` steps from `s` to `t`, and before the `m`-th of them it is in Run at step `k + m` of the command's program. -/
def RunsInSteps (c : Command) (k n : Nat) (s t : State) : Prop :=
  Sys2Proof.core.run n s = .next t ∧ ∀ m < n, ∃ u : State, Sys2Proof.core.run m s = .next u ∧ u.seq = .run c (k + m)

theorem core_run_succ {s t : State} (h : step s = .next t) (n : Nat) :
    Sys2Proof.core.run (n + 1) s = Sys2Proof.core.run n t := by
  have hcore : Sys2Proof.core.step s = .next t := h
  simp only [Host.Core.run, hcore]

theorem RunsInSteps.refl (c : Command) (k : Nat) (s : State) : RunsInSteps c k 0 s s :=
  ⟨rfl, fun _ hm => absurd hm (Nat.not_lt_zero _)⟩

theorem RunsInSteps.head {c : Command} {k n : Nat} {s t u : State} (hseq : s.seq = .run c k) (hstep : step s = .next t)
    (h : RunsInSteps c (k + 1) n t u) : RunsInSteps c k (n + 1) s u := by
  obtain ⟨hrun, hbefore⟩ := h
  refine ⟨(core_run_succ hstep n).trans hrun, fun m hm => ?_⟩
  cases m with
  | zero => exact ⟨s, rfl, hseq⟩
  | succ m =>
    obtain ⟨v, hv, hvseq⟩ := hbefore m (Nat.lt_of_succ_lt_succ hm)
    exact ⟨v, (core_run_succ hstep m).trans hv, by rw [hvseq, Nat.add_right_comm]; rfl⟩

/-- After a sequencer step the command has ended, or the machine is in Run at the next step (R33). -/
theorem seqStep_seq (c : Command) (k : Nat) (p : ProgStep) (s : State) :
    (seqStep c k p s).seq = .idle ∨ (seqStep c k p s).seq = .run c (k + 1) := by
  by_cases hok : (performStep p s).2 = .ok
  · by_cases hlast : k = (program c).length
    · rw [seqStep_of_ok_of_last hok hlast]
      exact .inl rfl
    · rw [seqStep_of_ok_of_ne hok hlast]
      exact .inr rfl
  · rw [seqStep_of_ne_ok hok]
    exact .inl rfl

/-- In Run at step `k + 1`, the steps left are made one by one: at least one, and at most all of them. -/
theorem exists_runsInSteps_runSteps {c : Command} {ps : List ProgStep} {k : Nat} (hps : (program c).drop k = ps) {s : State}
    (hseq : s.seq = .run c (k + 1)) :
    ∃ n ≤ ps.length, (ps ≠ [] → 1 ≤ n) ∧ RunsInSteps c (k + 1) n s (runSteps c ps (k + 1) s) := by
  induction ps generalizing k s with
  | nil => exact ⟨0, le_rfl, fun h => absurd rfl h, .refl c (k + 1) s⟩
  | cons p rest ih =>
    have hp : (program c)[k]? = some p := by rw [← List.head?_drop, hps, List.head?_cons]
    have hrest : (program c).drop (k + 1) = rest := by rw [← List.tail_drop, hps, List.tail_cons]
    have hstep := step_of_running hseq hp
    obtain hnext | hnext := seqStep_seq c (k + 1) p s
    · simp only [runSteps, hnext]
      exact ⟨1, by simp, fun _ => le_rfl, .head hseq hstep (.refl _ _ _)⟩
    · obtain ⟨n, hn, -, hruns⟩ := ih hrest hnext
      simp only [runSteps, hnext]
      exact ⟨n + 1, Nat.succ_le_succ hn, fun _ => Nat.le_add_left 1 n, .head hseq hstep hruns⟩

/-- Settles O36: `runSteps` is the machine's own steps, from the accepted command on. -/
theorem commandRunsStepByStep : Obligations.CommandRunsStepByStep := by
  intro c s hidle
  obtain ⟨n, hn, hpos, hrun, hbefore⟩ := exists_runsInSteps_runSteps (k := 0) (ps := program c) rfl (s := accept c s) rfl
  have hlen : (program c).length ≤ 8 := by
    have := program_length c
    omega
  refine ⟨n, _, (exec_of_command c s).trans (runCommand_of_idle hidle),
    hpos (List.ne_nil_of_length_pos (program_length_pos c)), hn, hlen, hrun, fun m hm => ?_⟩
  rw [Nat.add_comm m 1]
  exact hbefore m hm

/-! ### INITIALIZE (R102 to R107) -/

/-- The bank update of a program step from its register and its word. -/
theorem ProgStep.update_eq_elim (b : RegFile Word) (p : ProgStep) : p.update b = p.target.elim b (b.set · p.word) := by
  cases p <;> rfl

/-- The registers and words of R102 in order; the words of steps 2 to 5 are decisions D7 to D10. -/
theorem programInitialize_words :
    programInitialize.map (fun p => (p.target, p.word)) =
      [(none, 0x0000#16), (some .pdc, 0x0000#16), (some .daif, 0x000A#16), (some .dapc, 0x0000#16), (some .aapc, 0x0015#16),
        (some .ac, 0x0001#16), (some .lli, 0x0117#16), (some .lhp, 0x0180#16)] := by
  decide

/-- The eight frames of R102 in order. -/
theorem programInitialize_entries (a : Answer) :
    programInitialize.map (·.entry a) =
      [⟨Config.deviceAddr, 0x0F#8, 0x0000#16, a⟩, ⟨Config.deviceAddr, 0x06#8, 0x0000#16, a⟩,
        ⟨Config.deviceAddr, 0x07#8, 0x000A#16, a⟩, ⟨Config.deviceAddr, 0x05#8, 0x0000#16, a⟩,
        ⟨Config.deviceAddr, 0x04#8, 0x0015#16, a⟩, ⟨Config.deviceAddr, 0x09#8, 0x0001#16, a⟩,
        ⟨Config.deviceAddr, 0x00#8, 0x0117#16, a⟩, ⟨Config.deviceAddr, 0x02#8, 0x0180#16, a⟩] := by
  have h := congrArg (List.map fun f => TraceEntry.mk Config.deviceAddr (f.1.elim resetAddr addr) f.2 a) programInitialize_words
  rwa [List.map_map] at h

/-- The seven stored registers of R107; the other three keep their words. -/
theorem programInitialize_bank (b : RegFile Word) :
    programInitialize.foldl ProgStep.update b =
      { b with
        lli := 0x0117#16, lhp := 0x0180#16, aapc := 0x0015#16, dapc := 0x0000#16, pdc := 0x0000#16, daif := 0x000A#16
        ac := 0x0001#16 } := by
  have h := congrArg (List.foldl (fun b f => f.1.elim b (b.set · f.2)) b) programInitialize_words
  simp only [List.foldl_map, ← ProgStep.update_eq_elim] at h
  refine h.trans ?_
  simp only [List.foldl_cons, List.foldl_nil, Option.elim, RegFile.set]

/-- Settles O37: `run` with every answer Ok, on INITIALIZE's program. -/
theorem initializeSucceeds : Obligations.InitializeSucceeds := by
  intro s hidle hok
  obtain ⟨t, hexec, h⟩ := exec_endsWith .initializeCodec hidle
  rw [referenceRun_of_all_ok (c := .initializeCodec) hok] at h
  exact ⟨t, hexec, h.seq, h.statuses, h.trace.trans (congrArg _ (programInitialize_entries .ok)),
    h.bank.trans (programInitialize_bank s.bank), rfl⟩

/-- The frames of `run` go to the addresses of the first steps, in program order. -/
theorem referenceSteps_address_prefix (answers : Nat → Answer) (ps : List ProgStep) (j : Nat) (b : RegFile Word) :
    (referenceSteps answers ps j b).trace.map TraceEntry.address <+: ps.map ProgStep.address := by
  induction ps generalizing j b with
  | nil => exact List.nil_prefix
  | cons p rest ih =>
    rw [referenceSteps_cons]
    split
    · exact (List.prefix_cons_inj p.address).mpr (ih (j + 1) (p.update b))
    · exact (List.prefix_cons_inj p.address).mpr List.nil_prefix

/-- Only the last frame of `run` may have been answered BusError (R98). -/
theorem referenceSteps_dropLast_ok (answers : Nat → Answer) (ps : List ProgStep) (j : Nat) (b : RegFile Word) :
    ∀ e ∈ (referenceSteps answers ps j b).trace.dropLast, e.answer = .ok := by
  induction ps generalizing j b with
  | nil => simp [referenceSteps]
  | cons p rest ih =>
    rw [referenceSteps_cons]
    split
    · have hrest := ih (j + 1) (p.update b)
      rw [CommandResult.cons]
      cases htrace : (referenceSteps answers rest (j + 1) (p.update b)).trace with
      | nil => simp
      | cons e es =>
        rw [htrace] at hrest
        rw [List.dropLast_cons_cons]
        exact List.forall_mem_cons.mpr ⟨rfl, hrest⟩
    · simp

theorem referenceSteps_trace_ne_nil (answers : Nat → Answer) {ps : List ProgStep} (hne : ps ≠ []) (j : Nat)
    (b : RegFile Word) : (referenceSteps answers ps j b).trace ≠ [] := by
  cases ps with
  | nil => exact absurd rfl hne
  | cons p rest =>
    rw [referenceSteps_cons]
    split <;> exact List.cons_ne_nil _ _

/-- Where the frames sent reach ActiveControl, the five addresses before it in the fixed order stand before the last frame (R104). -/
theorem mem_dropLast_of_prefix_initialize {l : List Byte}
    (hl : l <+: [0x0F#8, 0x06#8, 0x07#8, 0x05#8, 0x04#8, 0x09#8, 0x00#8, 0x02#8]) (hmem : 0x09#8 ∈ l) :
    ∀ a ∈ [0x0F#8, 0x06#8, 0x07#8, 0x05#8, 0x04#8], a ∈ l.dropLast := by
  rw [← List.mem_inits] at hl
  revert hmem
  revert l
  decide

/-- Settles O38, from the order and the answers of the frames of `run`. -/
theorem initializeOrderIsFixed : Obligations.InitializeOrderIsFixed := by
  intro s hidle
  obtain ⟨t, hexec, h⟩ := exec_endsWith .initializeCodec hidle
  have hprefix := referenceSteps_address_prefix s.answerAt (program .initializeCodec) 0 s.bank
  have hok := referenceSteps_dropLast_ok s.answerAt (program .initializeCodec) 0 s.bank
  refine ⟨t, _, hexec, h.trace, referenceSteps_trace_ne_nil _ (by decide) _ _, hprefix, hok, ?_⟩
  rintro ⟨e, he, haddr⟩ a ha
  have hmem := mem_dropLast_of_prefix_initialize hprefix (haddr ▸ List.mem_map_of_mem he) a ha
  rw [← List.map_dropLast] at hmem
  obtain ⟨f, hf, hfaddr⟩ := List.mem_map.mp hmem
  exact ⟨f, List.mem_of_mem_dropLast hf, hfaddr, hok f hf⟩

/-! ### RESET (R109) -/

/-- A command whose program is one step makes that step and ends with its answer (R97, R98). -/
theorem exec_of_singleton {c : Command} {p : ProgStep} (hprogram : program c = [p]) {s : State} (hidle : s.seq = .idle) :
    exec c.instr s = .next ((p.issue s).endCommand (statusOf (s.answerAt 0))) := by
  have hfits : p.fits = true := program_fits (c := c) (by rw [hprogram]; exact List.mem_singleton_self p)
  rw [exec_of_command, runCommand_of_idle hidle, hprogram, runSteps_cons_of_ends hfits (.inr (by rw [hprogram]; rfl))]
  rfl

/-- Settles O39: RESET's one step is the reset trigger. -/
theorem resetCommandSendsTrigger : Obligations.ResetCommandSendsTrigger :=
  ⟨⟨rfl, rfl⟩, fun s hidle => ⟨_, exec_of_singleton (c := .reset) rfl hidle, rfl, rfl,
    congrArg (fun st => s.statuses ++ [st]) (statusOf_eq_ite _), rfl, rfl, rfl, rfl⟩⟩

/-! ### The step takes what is presented (R95, R144, R150) -/

theorem takeWord_of_decode {e : Encoded} {i : Instr} (h : decode e = .ok i) (s : State) : takeWord e s = exec i s := by
  simp only [takeWord, h]

theorem step_of_placed {s : State} {e : Encoded} (hseq : s.seq = .idle) (hplaced : s.placed = some e) :
    step s = takeWord e (s.setPlaced none) := by
  simp only [step, hseq, hplaced]

theorem decode_of_decodeTableWord {nbits w : Nat} {i : Instr} (h : decodeTableWord nbits w = some i) :
    decode (encodedOfTable nbits w) = .ok i := by
  unfold decodeTableWord at h
  split at h
  · next hdecode => exact hdecode.trans (congrArg Except.ok (Option.some.inj h))
  · cases h

/-- A word of the opcode table runs in Idle as the instruction it decodes to, presented or placed (log 5, log 6). -/
theorem step_withFetchWord (s : State) (nbits w : Nat) :
    step (s.withFetchWord nbits w) = takeWord (encodedOfTable nbits w) { s with seq := .idle, placed := none } := by
  unfold State.withFetchWord
  split
  · next v h => rw [h]; exact step_of_command rfl rfl rfl
  · next v fv h => rw [h]; exact step_of_placed rfl rfl
  · next f h => rw [h]; exact step_of_placed rfl rfl

/-- Settles O30: each way a word comes to the machine ends in `takeWord`. -/
theorem stepRunsDecodedInstruction : Obligations.StepRunsDecodedInstruction := by
  refine ⟨fun s w rest i hseq hplaced hinbox hdecode => ?command, fun s e i hseq hplaced hdecode => ?placed,
    fun s nbits w i htable => ?table, fun s hseq hplaced hinbox => ?nothing⟩
  case command => exact (step_of_command hseq hplaced hinbox).trans (takeWord_of_decode hdecode _)
  case placed => exact (step_of_placed hseq hplaced).trans (takeWord_of_decode hdecode _)
  case table => exact (step_withFetchWord s nbits w).trans (takeWord_of_decode (decode_of_decodeTableWord htable) _)
  case nothing =>
    exact ⟨_, step_eq_idleTick hseq hplaced hinbox, rfl, hseq, rfl, rfl, rfl, hinbox, hplaced, rfl, rfl⟩

/-- In Idle any word at the command port is answered: a legal one runs its command, any other is IllegalCommand (R95, R126). -/
theorem exists_takeWord_command {s : State} (hidle : s.seq = .idle) (w : BitVec 32) :
    ∃ t, takeWord (.command w) s = .next t := by
  cases hlegal : legalCommandWord w with
  | false => exact ⟨_, takeWord_of_not_legal hlegal s⟩
  | true =>
    obtain ⟨i, hdecode⟩ := legalCommandWord_iff_decodes.mp hlegal
    obtain ⟨c, -, rfl⟩ := decode_command_eq_ok.mp hdecode
    exact ⟨_, (takeWord_of_decode hdecode s).trans ((exec_of_command c s).trans (runCommand_of_idle hidle))⟩

/-- Settles O51: in Run the program's step is made; in Idle every request is answered, and without one the block does nothing. -/
theorem commandPortNeverStops : Obligations.CommandPortNeverStops := by
  intro s hin hplaced
  cases hseq : s.seq with
  | run c k =>
    rw [hseq] at hin
    obtain ⟨j, p, rfl, hp, -⟩ := exists_step_of_inProgram hin
    exact ⟨_, step_of_running hseq hp⟩
  | idle =>
    match hinbox : s.inbox with
    | [] => exact ⟨_, step_eq_idleTick hseq hplaced hinbox⟩
    | .hardwareReset :: rest => exact ⟨_, step_of_hardwareReset hseq hplaced hinbox⟩
    | .command w :: rest =>
      rw [step_of_command hseq hplaced hinbox]
      exact exists_takeWord_command (s := s.setInbox rest) hseq w

end Sys2Proof.Machine

/-! PROOFS. The gain commands (43_gain.md R111 to R120): the clamp and the quantiser as integer functions with their laws, then
SET_LINE_IN_VOLUME, SET_HEADPHONE_VOLUME and HEADPHONE_MUTE as one store of the quantised code. -/

namespace Sys2Proof.Machine

/-! ### Clamp and offset (R111, R112) -/

section Clamp

variable {g lo hi : Int}

theorem clampGain_of_le_min (hrange : lo ≤ hi) (hg : g ≤ lo) : clampGain g lo hi = lo := by
  rw [clampGain, max_eq_right hg, min_eq_left hrange]

theorem clampGain_of_max_le (hg : hi ≤ g) : clampGain g lo hi = hi :=
  min_eq_right (le_max_of_le_left hg)

theorem clampGain_of_mem (hlo : lo ≤ g) (hhi : g ≤ hi) : clampGain g lo hi = g := by
  rw [clampGain, max_eq_left hlo, min_eq_left hhi]

theorem min_le_clampGain (hrange : lo ≤ hi) : lo ≤ clampGain g lo hi :=
  le_min (le_max_right g lo) hrange

theorem clampGain_le_max : clampGain g lo hi ≤ hi :=
  min_le_right _ _

theorem clampGain_mono {g₁ g₂ : Int} (h : g₁ ≤ g₂) : clampGain g₁ lo hi ≤ clampGain g₂ lo hi :=
  min_le_min_right hi (max_le_max_right lo h)

/-- "values are always non-negative after clamping" (R112), so that the offset loses nothing as a natural number. -/
theorem natCast_gainOffset (hrange : lo ≤ hi) : (gainOffset g lo hi : Int) = clampGain g lo hi - lo :=
  Int.toNat_of_nonneg (sub_nonneg_of_le (min_le_clampGain hrange))

end Clamp

/-! ### The quantiser (R113, R120) -/

section Quantiser

variable {g lo hi : Int} {step top : Nat}

theorem natCast_gainCode (hrange : lo ≤ hi) : (gainCode g lo hi step : Int) = (clampGain g lo hi - lo) / step := by
  rw [gainCode, Int.natCast_ediv, natCast_gainOffset hrange]

theorem gainCode_mono {g₁ g₂ : Int} (h : g₁ ≤ g₂) : gainCode g₁ lo hi step ≤ gainCode g₂ lo hi step :=
  Nat.div_le_div_right (Int.toNat_le_toNat (sub_le_sub_right (clampGain_mono h) lo))

/-- A clamped gain between a grid point and the next one has the grid point's code (R113). -/
theorem gainCode_eq_of_clampGain {c d : Nat} (hd : d < step) (hclamp : clampGain g lo hi = lo + step * c + d) :
    gainCode g lo hi step = c := by
  have hoffset : gainOffset g lo hi = step * c + d := by
    rw [gainOffset, hclamp]
    omega
  rw [gainCode, hoffset, Nat.mul_add_div (Nat.zero_lt_of_lt hd), Nat.div_eq_of_lt hd, Nat.add_zero]

theorem gainCode_of_le_min (hstep : 0 < step) (hrange : lo ≤ hi) (hg : g ≤ lo) : gainCode g lo hi step = 0 :=
  gainCode_eq_of_clampGain hstep (by simpa using clampGain_of_le_min hrange hg)

theorem gainCode_of_max_le (hstep : 0 < step) (hrange : lo + step * top = hi) (hg : hi ≤ g) : gainCode g lo hi step = top :=
  gainCode_eq_of_clampGain hstep (by simpa [hrange] using clampGain_of_max_le hg)

/-- From a grid point up to the next one, within the range, the code is the grid point's. -/
theorem gainCode_of_grid {c d : Nat} (hd : d < step) (htop : step * c + d ≤ step * top) :
    gainCode (lo + step * c + d) lo (lo + step * top) step = c := by
  have htop' : (step * c + d : Int) ≤ step * top := mod_cast htop
  exact gainCode_eq_of_clampGain hd (clampGain_of_mem (by omega) (by omega))

/-- The gain of a code is the clamped gain or less than one step below it. -/
theorem clampGain_within_step (hstep : 0 < step) (hrange : lo ≤ hi) :
    lo + step * gainCode g lo hi step ≤ clampGain g lo hi ∧ clampGain g lo hi < lo + step * gainCode g lo hi step + step := by
  rw [natCast_gainCode hrange]
  have hpos : (0 : Int) < step := mod_cast hstep
  have hle := Int.mul_ediv_self_le (x := clampGain g lo hi - lo) hpos.ne'
  have hlt := Int.lt_mul_ediv_self_add (x := clampGain g lo hi - lo) hpos
  exact ⟨by omega, by omega⟩

end Quantiser

/-- Settles O43: the bounds of the clamp, and the division with remainder. -/
theorem quantiserClampsAndTruncates : Obligations.QuantiserClampsAndTruncates := by
  refine ⟨fun g lo hi hrange => ?clamp, fun g lo hi hrange => ?offset, fun g lo hi step hstep => ?code, by decide⟩
  case clamp => exact ⟨fun h => clampGain_of_le_min hrange h.le, fun h => clampGain_of_max_le h.le, clampGain_of_mem⟩
  case offset =>
    rw [natCast_gainOffset hrange]
    exact ⟨rfl, sub_le_sub_right clampGain_le_max lo⟩
  case code => exact ⟨Nat.mul_div_le _ _, Nat.lt_mul_div_succ _ hstep⟩

/-- Settles O44, law by law; a code's own gain is the grid point with no remainder. -/
theorem quantiserLaws : Obligations.QuantiserLaws := by
  refine ⟨fun g => ⟨lineInCode_le g, headphoneCode_le g⟩, fun _ _ _ _ _ => gainCode_mono, fun lo step top hstep => ?_, by decide⟩
  have hrange : lo ≤ lo + step * top := Int.le_add_of_nonneg_right (mod_cast Nat.zero_le _)
  refine ⟨fun g => gainCode_of_le_min hstep hrange, fun g => gainCode_of_max_le hstep rfl,
    fun c d _ => gainCode_of_grid, fun g => clampGain_within_step hstep hrange, fun g => ?idempotent⟩
  have hcode : gainCode g lo (lo + step * top) step ≤ top := gainCode_le (by omega)
  simpa using gainCode_of_grid (lo := lo) hstep (Nat.mul_le_mul_left step hcode)

/-! ### The codes of the two gain ranges (R115, R116) -/

theorem natCast_lineInCode (g : Gain) : (lineInCode g : Int) = (min (max g.toInt (-345)) 120 + 345) / 15 :=
  natCast_gainCode (by decide)

theorem natCast_headphoneCode (g : Gain) : (headphoneCode g : Int) = (min (max g.toInt (-1210)) 60 + 1210) / 10 :=
  natCast_gainCode (by decide)

theorem lineInCode_of_le_min {g : Gain} (h : g.toInt ≤ -345) : lineInCode g = 0 :=
  gainCode_of_le_min (by decide) (by decide) h

theorem lineInCode_of_max_le {g : Gain} (h : 120 ≤ g.toInt) : lineInCode g = 31 :=
  gainCode_of_max_le (by decide) (by decide) h

theorem headphoneCode_of_le_min {g : Gain} (h : g.toInt ≤ -1210) : headphoneCode g = 0 :=
  gainCode_of_le_min (by decide) (by decide) h

theorem headphoneCode_of_max_le {g : Gain} (h : 60 ≤ g.toInt) : headphoneCode g = 127 :=
  gainCode_of_max_le (by decide) (by decide) h

/-! ### The words (R59, R117, R118) -/

/-- A command word is its opcode at the top joined with the operand. -/
theorem commandWord_eq_or (op : BitVec 4) (g : BitVec 16) :
    commandWord op g = (op ++ 0#12 ++ 0#16) ||| g.setWidth 32 := by
  have harg : g.setWidth 32 = 0#16 ++ g := BitVec.setWidth_eq_append (by decide)
  rw [harg, BitVec.or_append, BitVec.or_zero, BitVec.zero_or, commandWord]

/-- Mute is always cleared and both-update always set (R117). -/
theorem storeLineIn_word {code : Nat} (h : code ≤ 31) : (storeLineIn code).word = 0x0100#16 ||| BitVec.ofNat 16 code := by
  calc (storeLineIn code).word
    _ = structuredWord .lli [BitVec.ofNat 16 code, 0#16, 1#16] := pack_eq_structuredWord (storeLineIn_fits h)
    _ = BitVec.ofNat 16 code ||| 0x0000#16 ||| 0x0100#16 := rfl
    _ = 0x0100#16 ||| BitVec.ofNat 16 code := by rw [BitVec.or_zero, BitVec.or_comm]

/-- Zero-cross-enable and both-update are always set (R118). -/
theorem storeHeadphone_word {code : Nat} (h : code ≤ 127) : (storeHeadphone code).word = 0x0180#16 ||| BitVec.ofNat 16 code := by
  calc (storeHeadphone code).word
    _ = structuredWord .lhp [BitVec.ofNat 16 code, 1#16, 1#16] := pack_eq_structuredWord (storeHeadphone_fits h)
    _ = BitVec.ofNat 16 code ||| 0x0080#16 ||| 0x0100#16 := rfl
    _ = 0x0180#16 ||| BitVec.ofNat 16 code := by rw [BitVec.or_assoc, BitVec.or_comm]; rfl

/-! ### The three gain commands (R117 to R119) -/

/-- A command whose program is one store: the word stands in the bank, one frame carries it, and the answer is the status. -/
theorem exists_exec_of_store {c : Command} {r : RegId} {fv : List FieldValue} (hprogram : program c = [.store r fv]) {w : Word}
    (hword : (ProgStep.store r fv).word = w) {s : State} (hidle : s.seq = .idle) :
    ∃ t, exec c.instr s = .next t ∧ t.seq = .idle ∧ t.bank = s.bank.set r w ∧
      t.trace = s.trace ++ [⟨Config.deviceAddr, addr r, w, s.answerAt 0⟩] ∧
      t.statuses = s.statuses ++ [if s.answerAt 0 = .busError then Status.busError else .ok] ∧
      t.results = s.results ∧ t.inbox = s.inbox := by
  subst hword
  exact ⟨_, exec_of_singleton hprogram hidle, rfl, rfl, rfl, congrArg (fun st => s.statuses ++ [st]) (statusOf_eq_ite _), rfl, rfl⟩

/-- Settles O40: the program is one store of the code's word, and the landmarks are values of the code. -/
theorem setLineInVolumeStoresCode : Obligations.SetLineInVolumeStoresCode := by
  intro g s hidle c w
  have hc : c = lineInCode g := (natCast_lineInCode g).symm
  have hle := lineInCode_le g
  have hw : w = 0x0100#16 ||| BitVec.ofNat 16 (lineInCode g) := by rw [← BitVec.ofInt_natCast 16 (lineInCode g), ← hc]
  obtain ⟨t, hexec, hseq, hbank, htrace, hstatuses, hresults, hinbox⟩ :=
    exists_exec_of_store (c := .setLineInVolume g) rfl ((storeLineIn_word hle).trans hw.symm) hidle
  refine ⟨by omega, by omega, t, hexec, hseq, hbank, htrace, hstatuses, hresults, hinbox, fun h => ?floor, fun h => ?ceiling,
    fun h => ?zero, congrArg Encoded.command (commandWord_eq_or 0x3#4 g)⟩
  case floor => rw [hw, lineInCode_of_le_min h]; rfl
  case ceiling => rw [hw, lineInCode_of_max_le h]; rfl
  case zero => rw [hw, h]; rfl

/-- Settles O41 in the same way as O40. -/
theorem setHeadphoneVolumeStoresCode : Obligations.SetHeadphoneVolumeStoresCode := by
  intro g s hidle c w
  have hc : c = headphoneCode g := (natCast_headphoneCode g).symm
  have hle := headphoneCode_le g
  have hw : w = 0x0180#16 ||| BitVec.ofNat 16 (headphoneCode g) := by rw [← BitVec.ofInt_natCast 16 (headphoneCode g), ← hc]
  obtain ⟨t, hexec, hseq, hbank, htrace, hstatuses, hresults, hinbox⟩ :=
    exists_exec_of_store (c := .setHeadphoneVolume g) rfl ((storeHeadphone_word hle).trans hw.symm) hidle
  refine ⟨by omega, by omega, t, hexec, hseq, hbank, htrace, hstatuses, hresults, hinbox, fun h => ?floor, fun h => ?ceiling,
    fun h => ?zero, congrArg Encoded.command (commandWord_eq_or 0x4#4 g)⟩
  case floor => rw [hw, headphoneCode_of_le_min h]; rfl
  case ceiling => rw [hw, headphoneCode_of_max_le h]; rfl
  case zero => rw [hw, h]; rfl

/-- A gain at or below the range minimum has the program of HEADPHONE_MUTE. -/
theorem program_headphone_of_le_min {g : Gain} (h : g.toInt ≤ -1210) :
    program (.setHeadphoneVolume g) = program .headphoneMute :=
  congrArg (fun code => [storeHeadphone code]) (headphoneCode_of_le_min h)

/-- Settles O42: code 0 is the code of the range minimum, so that the programs are the same. -/
theorem headphoneMuteIsMinimumVolume : Obligations.HeadphoneMuteIsMinimumVolume := by
  refine ⟨by decide, fun s hidle => ⟨?stores, ?isMinimum, rfl⟩⟩
  case stores => exact exists_exec_of_store (c := .headphoneMute) rfl (storeHeadphone_word (by decide)) hidle
  case isMinimum =>
    have hprogram := program_headphone_of_le_min (g := BitVec.ofInt 16 (-1210)) (by decide)
    exact (exec_of_singleton (c := .headphoneMute) rfl hidle).trans
      (exec_of_singleton (c := .setHeadphoneVolume _) hprogram hidle).symm

end Sys2Proof.Machine

/-! PROOFS. The statuses (60_exceptions.md R123, R124): their codes, and the status of a bus write. -/

namespace Sys2Proof.Machine

/-- Settles O56: the codes are the rows of R123's table, and a bus write's status follows the answer. -/
theorem statusCodes : Obligations.StatusCodes := by
  refine ⟨rfl, rfl, rfl, rfl, ?busError, ?ok⟩
  case busError => exact (statusOf_eq_ite .busError).trans (if_pos rfl)
  case ok => exact (statusOf_eq_ite .ok).trans (if_neg (by decide))

end Sys2Proof.Machine

/-! PROOFS. Reset and hazards (70_reset_and_hazards.md): the power-on reset (R142), the state it leaves and the command words that
lead from Idle to Idle (R160), and the device's registers against the bank after INITIALIZE (R152, R153). -/

namespace Sys2Proof.Machine

/-! ### The power-on reset (R142, R145) and the reset state (R160) -/

/-- Settles O2: the request is taken, and `State.powerOnReset` names neither the device nor the requests nor the answers. -/
theorem hardwareResetRecreatesBlock : Obligations.HardwareResetRecreatesBlock :=
  ⟨rfl, rfl, fun _ _ hseq hplaced hinbox =>
    ⟨_, step_of_hardwareReset hseq hplaced hinbox, rfl, rfl, rfl, rfl, rfl, rfl⟩⟩

/-- Settles O49: the reset state is Idle and its bank is the default image. -/
theorem resetMeetsInvariant : Obligations.ResetMeetsInvariant :=
  ⟨State.Inv.of_idle defaultImage_reservedZero rfl, ⟨rfl, defaultImage_reservedZero⟩, rfl, rfl, rfl⟩

/-! ### Command words lead from Idle to Idle (R106, R132, R160) -/

/-- A command executed in Idle ends in Idle (R97, R98), the reserved bits stay 0 (R17), and the registers no command stores keep their
words (R155). -/
theorem exec_command_keeps_unstoredDefault (c : Command) {s : State} (hidle : s.AnyIdle) (hdefault : s.UnstoredDefault) :
    ∃ t, exec c.instr s = .next t ∧ t.AnyIdle ∧ t.UnstoredDefault ∧ t.inbox = s.inbox := by
  obtain ⟨hseq, hbank⟩ := hidle
  obtain ⟨hrli, hrhp, hsc⟩ := hdefault
  obtain ⟨t, hexec, hend⟩ := exec_endsWith c hseq
  obtain ⟨u, _, hexec', -, -, hrli', hrhp', hsc'⟩ := commandsWriteOnlyTheirAddresses c s hseq
  obtain rfl : t = u := Host.Outcome.next.inj (hexec.symm.trans hexec')
  have hinv : NextMeets State.Inv (exec c.instr s) := (State.Inv.of_idle hbank hseq).exec c.instr
  rw [hexec, nextMeets_next] at hinv
  obtain ⟨hreserved, -⟩ := hinv
  exact ⟨t, hexec, ⟨hend.seq, hreserved⟩, ⟨hrli'.trans hrli, hrhp'.trans hrhp, hsc'.trans hsc⟩, hend.inbox⟩

/-- Settles O50: an illegal word only adds its status (R126); a legal one runs its command. -/
theorem commandStepsKeepUnstoredDefaults : Obligations.CommandStepsKeepUnstoredDefaults := by
  intro s w rest hidle hdefault hplaced hinbox
  obtain ⟨hseq, hbank⟩ := hidle
  rw [step_of_command hseq hplaced hinbox]
  cases hlegal : legalCommandWord w with
  | false => exact ⟨_, takeWord_of_not_legal hlegal _, ⟨rfl, hbank⟩, hdefault, rfl⟩
  | true =>
    obtain ⟨i, hdecode⟩ := legalCommandWord_iff_decodes.mp hlegal
    obtain ⟨c, -, rfl⟩ := decode_command_eq_ok.mp hdecode
    rw [takeWord_of_decode hdecode]
    exact exec_command_keeps_unstoredDefault c (s := s.setInbox rest) ⟨hseq, hbank⟩ hdefault

/-! ### The device's registers against the bank (R151 to R153) -/

/-- The device holds the low nine bits of the bank's word of register `q`. -/
def State.Synchronised (s : State) (q : RegId) : Prop := s.device.regs.get q = (s.bank.get q).setWidth 9

/-- The step is a store, and not one whose both-update may change register `q` (R55). -/
def ProgStep.SparesPair (q : RegId) (p : ProgStep) : Prop := p.target ≠ none ∧ p.target.bind pairedReg ≠ some q

/-- An accepted reset trigger brings to agreement a register whose bank word is the default (R54). -/
theorem State.Synchronised.issue_resetTrigger {s : State} {q : RegId} (hans : s.answerAt 0 = .ok)
    (hdefault : s.bank.get q = defaultImage.get q) : (ProgStep.resetTrigger.issue s).Synchronised q := by
  have hdevice : (ProgStep.resetTrigger.issue s).device.regs.get q = (defaultImage.get q).setWidth 9 :=
    State.busWrite_reset_regs (s := s) hans resetValue q
  exact hdevice.trans (congrArg _ hdefault.symm)

/-- An accepted store brings its own register to agreement and leaves the agreement of any other but the paired one as it is
(R53, R55). -/
theorem State.Synchronised.issue_store {s : State} {q r : RegId} {fv : List FieldValue} (hans : s.answerAt 0 = .ok)
    (hpair : pairedReg r ≠ some q) (h : q = r ∨ s.Synchronised q) : ((ProgStep.store r fv).issue s).Synchronised q := by
  have hdevice : ((ProgStep.store r fv).issue s).device = s.device.busWrite s.draws (addr r) (pack r fv) .ok :=
    congrArg (s.device.busWrite s.draws (addr r) (pack r fv)) hans
  have hbank : ((ProgStep.store r fv).issue s).bank = s.bank.set r (pack r fv) := rfl
  rw [State.Synchronised, hdevice, hbank]
  by_cases hq : q = r
  · subst hq
    rw [Device.busWrite_ok_regs_self, RegFile.get_set_self]
  · rw [Device.busWrite_ok_regs_of_ne _ _ hq (.inr hpair), RegFile.get_set_of_ne _ _ hq]
    exact h.resolve_left hq

/-- Stores that are all accepted, up to the program's last one, leave in agreement a register that one of them stores or that agreed
before. -/
theorem State.Synchronised.runSteps {c : Command} {ps : List ProgStep} {q : RegId}
    (hps : ∀ p ∈ ps, p.fits = true ∧ p.SparesPair q) {k : Nat} (hlen : k + ps.length = (program c).length + 1) {s : State}
    (hok : ∀ i < ps.length, s.answerAt i = .ok) (h : (∃ p ∈ ps, p.target = some q) ∨ s.Synchronised q) :
    (runSteps c ps k s).Synchronised q := by
  induction ps generalizing k s with
  | nil => exact h.resolve_left (by simp)
  | cons p rest ih =>
    obtain ⟨⟨hfits, htarget, hpair⟩, hrest⟩ := List.forall_mem_cons.mp hps
    rw [List.length_cons] at hlen hok
    have hans : s.answerAt 0 = .ok := hok 0 (Nat.zero_lt_succ _)
    have hissue : (∃ p ∈ rest, p.target = some q) ∨ (p.issue s).Synchronised q := by
      cases p with
      | resetTrigger => exact absurd rfl htarget
      | store r fv =>
        rw [List.exists_mem_cons_iff, or_comm (a := ProgStep.target _ = some q), or_assoc] at h
        exact h.imp_right fun h => .issue_store hans hpair (h.imp_left fun hr => (Option.some.inj hr).symm)
    by_cases hlast : k = (program c).length
    · obtain rfl : rest = [] := List.length_eq_zero_iff.mp (by omega)
      rw [runSteps_cons_of_ends hfits (.inr hlast)]
      exact hissue.resolve_left (by simp)
    · rw [runSteps_cons_of_goesOn hfits hans hlast]
      refine ih hrest (by omega) (fun i hi => ?_) hissue
      rw [State.answerAt_setSeq, p.answerAt_issue]
      exact hok (i + 1) (Nat.succ_lt_succ hi)

/-- The seven stores of INITIALIZE, after its reset trigger, change no register by both-update but the two right channels. -/
theorem sparesPair_of_mem_programInitialize_tail {q : RegId} (hrli : q ≠ .rli) (hrhp : q ≠ .rhp) :
    ∀ p ∈ programInitialize.tail, p.SparesPair q := by
  unfold ProgStep.SparesPair
  revert hrli hrhp
  cases q <;> decide

/-- They store every register but the two right channels and SamplingControl (R155). -/
theorem stored_or_eq_sc_of_ne {q : RegId} (hrli : q ≠ .rli) (hrhp : q ≠ .rhp) :
    (∃ p ∈ programInitialize.tail, p.target = some q) ∨ q = .sc := by
  revert hrli hrhp
  cases q <;> decide

/-- Settles O47: the accepted reset trigger brings SamplingControl to agreement, and the stores after it the other seven registers. -/
theorem initializeSynchronisesDevice : Obligations.InitializeSynchronisesDevice := by
  intro s hidle hdefault hok
  refine ⟨_, (exec_of_command .initializeCodec s).trans (runCommand_of_idle hidle), fun q hrli hrhp => ?_⟩
  have hfirst : (accept .initializeCodec s).answerAt 0 = .ok := hok 0 (by decide)
  have hprogram : program .initializeCodec = .resetTrigger :: programInitialize.tail := rfl
  have htail : ∀ p ∈ programInitialize.tail, p.fits = true ∧ p.SparesPair q := fun p hp =>
    ⟨program_fits (c := .initializeCodec) (List.mem_of_mem_tail hp), sparesPair_of_mem_programInitialize_tail hrli hrhp p hp⟩
  rw [hprogram, runSteps_cons_of_goesOn rfl hfirst (by decide)]
  refine State.Synchronised.runSteps htail rfl (fun i hi => ?answers) ((stored_or_eq_sc_of_ne hrli hrhp).imp_right ?sc)
  case answers =>
    rw [State.answerAt_setSeq, ProgStep.answerAt_issue]
    exact hok (i + 1) (Nat.succ_lt_succ hi)
  case sc =>
    rintro rfl
    obtain ⟨-, -, hsc⟩ := hdefault
    exact State.Synchronised.issue_resetTrigger (s := accept .initializeCodec s) hfirst hsc

end Sys2Proof.Machine
